-- ==== Sys2Proof/Word.lean ====
section
/-! DEFINITION. The machine's words. Bit 0 is the least significant bit (00_scope.md R11). -/

namespace Sys2Proof

/-- A host data word: the bus carries 32 bits (00_scope.md R10). -/
abbrev Word := BitVec 32

/-- A byte of IBUF or OBUF, and a symbol (00_scope.md R10). -/
abbrev Byte := BitVec 8

end Sys2Proof
end

