-- ==== Sys2Proof/Syntax.lean ====
section
/-! DEFINITION. The two formats (30_encoding.md R100) and the instructions: one constructor per row of
spec/opcode_table.json. A command's operands are state elements (R104), so its constructor carries
only the bits its row leaves free; a write carries its WDATA. -/

namespace Sys2Proof

/-- SIZE of a transaction, in bytes: 1, 2 or 4 (30_encoding.md R101). -/
inductive AccessSize where
  | one
  | two
  | four
deriving DecidableEq, Repr

/-- One host bus transaction `(W, OFFSET, SIZE, WDATA)` (30_encoding.md R101). -/
structure BusTxn where
  write  : Bool
  offset : BitVec 8
  size   : AccessSize
  wdata  : Word
deriving DecidableEq, Repr

/-- The operation code `W << 8 | OFFSET` (30_encoding.md R101). -/
def BusTxn.op (t : BusTxn) : BitVec 9 := BitVec.ofBool t.write ++ t.offset

/-- What the engine decodes: a bus transaction or a command word (30_encoding.md R100). -/
inductive Packet where
  | bus (t : BusTxn)
  | cmd (word : Word)
deriving DecidableEq, Repr

/-- The instructions. `low` are the low bits a row's mask leaves free. -/
inductive Instr where
  /-- `NOP`, R185. -/
  | nop
  /-- `CLRF`, R201. -/
  | clrf
  /-- `COUNT`, R202. -/
  | count
  /-- `BUILD`, R224. -/
  | build
  /-- `GEN`, R252. -/
  | gen
  /-- `PACK`, R273. -/
  | pack
  /-- `ENCODE`, R300. -/
  | encode
  /-- `SRST`, R186. -/
  | srst
  /-- `ILLEGAL.08`, R187. -/
  | illegal08 (low : BitVec 3)
  /-- `ILLEGAL.10`, R187. -/
  | illegal10 (low : BitVec 4)
  /-- `ILLEGAL.20`, R187. -/
  | illegal20 (low : BitVec 5)
  /-- `ILLEGAL.40`, R187. -/
  | illegal40 (low : BitVec 6)
  /-- `ILLEGAL.80`, R187. -/
  | illegal80 (low : BitVec 7)
  /-- `RD.ID`, R135. -/
  | rdId
  /-- `RD.VERSION`, R136. -/
  | rdVersion
  /-- `RD.CAP_IBUF`, R137. -/
  | rdCapIbuf
  /-- `RD.CAP_OBUF`, R138. -/
  | rdCapObuf
  /-- `RD.CMD`, R139. -/
  | rdCmd
  /-- `RD.STATUS`, R142. -/
  | rdStatus
  /-- `RD.IRQ_EN`, R143. -/
  | rdIrqEn
  /-- `RD.ERR_CODE`, R145. -/
  | rdErrCode
  /-- `RD.ERR_INFO`, R146. -/
  | rdErrInfo
  /-- `RD.ERR_SYM`, R147. -/
  | rdErrSym
  /-- `RD.IN_LEN`, R148. -/
  | rdInLen
  /-- `RD.IBUF_ADDR`, R150. -/
  | rdIbufAddr
  /-- `RD.IBUF_DATA`, R152. -/
  | rdIbufData
  /-- `RD.OBUF_ADDR`, R154. -/
  | rdObufAddr
  /-- `RD.OBUF_DATA`, R156. -/
  | rdObufData
  /-- `RD.OUT_BYTES`, R157. -/
  | rdOutBytes
  /-- `RD.OUT_BITS`, R158. -/
  | rdOutBits
  /-- `RD.FREQ_SEL`, R159. -/
  | rdFreqSel
  /-- `RD.FREQ_DATA`, R161. -/
  | rdFreqData
  /-- `RD.NSYM`, R163. -/
  | rdNsym
  /-- `RD.CT_SEL`, R164. -/
  | rdCtSel
  /-- `RD.CT_LEN`, R166. -/
  | rdCtLen
  /-- `RD.CT_MAXLEN`, R167. -/
  | rdCtMaxlen
  /-- `RD.CT_WORD0`, R168. -/
  | rdCtWord0
  /-- `RD.CT_WORD1`, R168. -/
  | rdCtWord1
  /-- `RD.CT_WORD2`, R168. -/
  | rdCtWord2
  /-- `RD.CT_WORD3`, R168. -/
  | rdCtWord3
  /-- `RD.CT_WORD4`, R168. -/
  | rdCtWord4
  /-- `RD.CT_WORD5`, R168. -/
  | rdCtWord5
  /-- `RD.CT_WORD6`, R168. -/
  | rdCtWord6
  /-- `RD.CT_WORD7`, R168. -/
  | rdCtWord7
  /-- `WR.ID`, R170. -/
  | wrId (wdata : Word)
  /-- `WR.VERSION`, R170. -/
  | wrVersion (wdata : Word)
  /-- `WR.CAP_IBUF`, R170. -/
  | wrCapIbuf (wdata : Word)
  /-- `WR.CAP_OBUF`, R170. -/
  | wrCapObuf (wdata : Word)
  /-- `WR.CMD`, R140. -/
  | wrCmd (wdata : Word)
  /-- `WR.STATUS`, R141. -/
  | wrStatus (wdata : Word)
  /-- `WR.IRQ_EN`, R144. -/
  | wrIrqEn (wdata : Word)
  /-- `WR.ERR_CODE`, R170. -/
  | wrErrCode (wdata : Word)
  /-- `WR.ERR_INFO`, R170. -/
  | wrErrInfo (wdata : Word)
  /-- `WR.ERR_SYM`, R170. -/
  | wrErrSym (wdata : Word)
  /-- `WR.IN_LEN`, R149. -/
  | wrInLen (wdata : Word)
  /-- `WR.IBUF_ADDR`, R151. -/
  | wrIbufAddr (wdata : Word)
  /-- `WR.IBUF_DATA`, R153. -/
  | wrIbufData (wdata : Word)
  /-- `WR.OBUF_ADDR`, R155. -/
  | wrObufAddr (wdata : Word)
  /-- `WR.OBUF_DATA`, R170. -/
  | wrObufData (wdata : Word)
  /-- `WR.OUT_BYTES`, R170. -/
  | wrOutBytes (wdata : Word)
  /-- `WR.OUT_BITS`, R170. -/
  | wrOutBits (wdata : Word)
  /-- `WR.FREQ_SEL`, R160. -/
  | wrFreqSel (wdata : Word)
  /-- `WR.FREQ_DATA`, R162. -/
  | wrFreqData (wdata : Word)
  /-- `WR.NSYM`, R170. -/
  | wrNsym (wdata : Word)
  /-- `WR.CT_SEL`, R165. -/
  | wrCtSel (wdata : Word)
  /-- `WR.CT_LEN`, R170. -/
  | wrCtLen (wdata : Word)
  /-- `WR.CT_MAXLEN`, R170. -/
  | wrCtMaxlen (wdata : Word)
  /-- `WR.CT_WORD0`, R170. -/
  | wrCtWord0 (wdata : Word)
  /-- `WR.CT_WORD1`, R170. -/
  | wrCtWord1 (wdata : Word)
  /-- `WR.CT_WORD2`, R170. -/
  | wrCtWord2 (wdata : Word)
  /-- `WR.CT_WORD3`, R170. -/
  | wrCtWord3 (wdata : Word)
  /-- `WR.CT_WORD4`, R170. -/
  | wrCtWord4 (wdata : Word)
  /-- `WR.CT_WORD5`, R170. -/
  | wrCtWord5 (wdata : Word)
  /-- `WR.CT_WORD6`, R170. -/
  | wrCtWord6 (wdata : Word)
  /-- `WR.CT_WORD7`, R170. -/
  | wrCtWord7 (wdata : Word)
  /-- `RD.RSVD5C`, R169. -/
  | rdRsvd5c
  /-- `RD.RSVD80`, R169. -/
  | rdRsvd80 (low : BitVec 7)
  /-- `WR.RSVD5C`, R171. -/
  | wrRsvd5c (wdata : Word)
  /-- `WR.RSVD80`, R171. -/
  | wrRsvd80 (low : BitVec 7) (wdata : Word)
deriving DecidableEq, Repr

end Sys2Proof
end

