-- ==== Sys2Proof/WellFormed.lean ====
section
/-! DEFINITION. Well-formed instructions: those some accepted packet stands for. The rows RD.RSVD80 and
WR.RSVD80 leave seven offset bits free, of which the two lowest are 0 in every accepted transaction
(40_host_access.md R131; 30_encoding.md R107). -/

namespace Sys2Proof

/-- OFFSET[1:0] = 0 (20_memory.md R78), on the low offset bits a reserved row leaves free. -/
def alignedLow (low : BitVec 7) : Bool := low.extractLsb' 0 2 == 0#2

/-- Every operand of the instruction is one its encoding admits. -/
def Instr.wellFormed : Instr → Bool
  | .rdRsvd80 low => alignedLow low
  | .wrRsvd80 low _ => alignedLow low
  | .nop | .clrf | .count | .build | .gen | .pack | .encode | .srst | .illegal08 _
  | .illegal10 _ | .illegal20 _ | .illegal40 _ | .illegal80 _ | .rdId | .rdVersion | .rdCapIbuf
  | .rdCapObuf | .rdCmd | .rdStatus | .rdIrqEn | .rdErrCode | .rdErrInfo | .rdErrSym | .rdInLen
  | .rdIbufAddr | .rdIbufData | .rdObufAddr | .rdObufData | .rdOutBytes | .rdOutBits
  | .rdFreqSel | .rdFreqData | .rdNsym | .rdCtSel | .rdCtLen | .rdCtMaxlen | .rdCtWord0
  | .rdCtWord1 | .rdCtWord2 | .rdCtWord3 | .rdCtWord4 | .rdCtWord5 | .rdCtWord6 | .rdCtWord7
  | .wrId _ | .wrVersion _ | .wrCapIbuf _ | .wrCapObuf _ | .wrCmd _ | .wrStatus _ | .wrIrqEn _
  | .wrErrCode _ | .wrErrInfo _ | .wrErrSym _ | .wrInLen _ | .wrIbufAddr _ | .wrIbufData _
  | .wrObufAddr _ | .wrObufData _ | .wrOutBytes _ | .wrOutBits _ | .wrFreqSel _ | .wrFreqData _
  | .wrNsym _ | .wrCtSel _ | .wrCtLen _ | .wrCtMaxlen _ | .wrCtWord0 _ | .wrCtWord1 _
  | .wrCtWord2 _ | .wrCtWord3 _ | .wrCtWord4 _ | .wrCtWord5 _ | .wrCtWord6 _ | .wrCtWord7 _
  | .rdRsvd5c | .wrRsvd5c _ => true

end Sys2Proof
end

