-- ==== Sys2Proof/Decode.lean ====
section
/-! DEFINITION. Decoding, total on every packet and rejecting by name, and the encoder. The two row lists
are spec/opcode_table.json: mask, match, mnemonic. -/

namespace Sys2Proof

/-- Why a packet stands for no instruction. -/
inductive Reject where
  /-- SIZE is not 4 (20_memory.md R78): a bus error (40_host_access.md R131). -/
  | badSize
  /-- OFFSET[1:0] is not 0 (20_memory.md R78): a bus error (40_host_access.md R131). -/
  | unaligned
  /-- No BUS row matches. It never happens: exactly one row matches every aligned offset
  (40_host_access.md R130). -/
  | noBusRow
  /-- No CMD row matches the word, because RSVD is not 0: ILLEGAL_CMD (30_encoding.md R106, R111). -/
  | noCmdRow
deriving DecidableEq, Repr

/-- One BUS row of the opcode table: the operation codes `op` with `op AND mask = pattern`. -/
structure BusRow where
  mnemonic : String
  mask     : BitVec 9
  pattern  : BitVec 9
  make     : BusTxn → Instr

/-- One CMD row of the opcode table: the words `w` with `w AND mask = pattern`. -/
structure CmdRow where
  mnemonic : String
  mask     : Word
  pattern  : Word
  make     : Word → Instr

/-- The offset bits a reserved row leaves free. -/
def BusTxn.low (t : BusTxn) : BitVec 7 := t.offset.extractLsb' 0 7

/-- The read rows of the offsets 0x00 to 0x3C. -/
def readRowsLow : List BusRow :=
  [ ⟨"RD.ID", 0x1FF, 0x000, fun _ => .rdId⟩,
    ⟨"RD.VERSION", 0x1FF, 0x004, fun _ => .rdVersion⟩,
    ⟨"RD.CAP_IBUF", 0x1FF, 0x008, fun _ => .rdCapIbuf⟩,
    ⟨"RD.CAP_OBUF", 0x1FF, 0x00C, fun _ => .rdCapObuf⟩,
    ⟨"RD.CMD", 0x1FF, 0x010, fun _ => .rdCmd⟩,
    ⟨"RD.STATUS", 0x1FF, 0x014, fun _ => .rdStatus⟩,
    ⟨"RD.IRQ_EN", 0x1FF, 0x018, fun _ => .rdIrqEn⟩,
    ⟨"RD.ERR_CODE", 0x1FF, 0x01C, fun _ => .rdErrCode⟩,
    ⟨"RD.ERR_INFO", 0x1FF, 0x020, fun _ => .rdErrInfo⟩,
    ⟨"RD.ERR_SYM", 0x1FF, 0x024, fun _ => .rdErrSym⟩,
    ⟨"RD.IN_LEN", 0x1FF, 0x028, fun _ => .rdInLen⟩,
    ⟨"RD.IBUF_ADDR", 0x1FF, 0x02C, fun _ => .rdIbufAddr⟩,
    ⟨"RD.IBUF_DATA", 0x1FF, 0x030, fun _ => .rdIbufData⟩,
    ⟨"RD.OBUF_ADDR", 0x1FF, 0x034, fun _ => .rdObufAddr⟩,
    ⟨"RD.OBUF_DATA", 0x1FF, 0x038, fun _ => .rdObufData⟩,
    ⟨"RD.OUT_BYTES", 0x1FF, 0x03C, fun _ => .rdOutBytes⟩ ]

/-- The read rows of the offsets 0x40 to 0xFC. -/
def readRowsHigh : List BusRow :=
  [ ⟨"RD.OUT_BITS", 0x1FF, 0x040, fun _ => .rdOutBits⟩,
    ⟨"RD.FREQ_SEL", 0x1FF, 0x044, fun _ => .rdFreqSel⟩,
    ⟨"RD.FREQ_DATA", 0x1FF, 0x048, fun _ => .rdFreqData⟩,
    ⟨"RD.NSYM", 0x1FF, 0x04C, fun _ => .rdNsym⟩,
    ⟨"RD.CT_SEL", 0x1FF, 0x050, fun _ => .rdCtSel⟩,
    ⟨"RD.CT_LEN", 0x1FF, 0x054, fun _ => .rdCtLen⟩,
    ⟨"RD.CT_MAXLEN", 0x1FF, 0x058, fun _ => .rdCtMaxlen⟩,
    ⟨"RD.RSVD5C", 0x1FF, 0x05C, fun _ => .rdRsvd5c⟩,
    ⟨"RD.CT_WORD0", 0x1FF, 0x060, fun _ => .rdCtWord0⟩,
    ⟨"RD.CT_WORD1", 0x1FF, 0x064, fun _ => .rdCtWord1⟩,
    ⟨"RD.CT_WORD2", 0x1FF, 0x068, fun _ => .rdCtWord2⟩,
    ⟨"RD.CT_WORD3", 0x1FF, 0x06C, fun _ => .rdCtWord3⟩,
    ⟨"RD.CT_WORD4", 0x1FF, 0x070, fun _ => .rdCtWord4⟩,
    ⟨"RD.CT_WORD5", 0x1FF, 0x074, fun _ => .rdCtWord5⟩,
    ⟨"RD.CT_WORD6", 0x1FF, 0x078, fun _ => .rdCtWord6⟩,
    ⟨"RD.CT_WORD7", 0x1FF, 0x07C, fun _ => .rdCtWord7⟩,
    ⟨"RD.RSVD80", 0x180, 0x080, fun t => .rdRsvd80 t.low⟩ ]

/-- The write rows of the offsets 0x00 to 0x3C. -/
def writeRowsLow : List BusRow :=
  [ ⟨"WR.ID", 0x1FF, 0x100, fun t => .wrId t.wdata⟩,
    ⟨"WR.VERSION", 0x1FF, 0x104, fun t => .wrVersion t.wdata⟩,
    ⟨"WR.CAP_IBUF", 0x1FF, 0x108, fun t => .wrCapIbuf t.wdata⟩,
    ⟨"WR.CAP_OBUF", 0x1FF, 0x10C, fun t => .wrCapObuf t.wdata⟩,
    ⟨"WR.CMD", 0x1FF, 0x110, fun t => .wrCmd t.wdata⟩,
    ⟨"WR.STATUS", 0x1FF, 0x114, fun t => .wrStatus t.wdata⟩,
    ⟨"WR.IRQ_EN", 0x1FF, 0x118, fun t => .wrIrqEn t.wdata⟩,
    ⟨"WR.ERR_CODE", 0x1FF, 0x11C, fun t => .wrErrCode t.wdata⟩,
    ⟨"WR.ERR_INFO", 0x1FF, 0x120, fun t => .wrErrInfo t.wdata⟩,
    ⟨"WR.ERR_SYM", 0x1FF, 0x124, fun t => .wrErrSym t.wdata⟩,
    ⟨"WR.IN_LEN", 0x1FF, 0x128, fun t => .wrInLen t.wdata⟩,
    ⟨"WR.IBUF_ADDR", 0x1FF, 0x12C, fun t => .wrIbufAddr t.wdata⟩,
    ⟨"WR.IBUF_DATA", 0x1FF, 0x130, fun t => .wrIbufData t.wdata⟩,
    ⟨"WR.OBUF_ADDR", 0x1FF, 0x134, fun t => .wrObufAddr t.wdata⟩,
    ⟨"WR.OBUF_DATA", 0x1FF, 0x138, fun t => .wrObufData t.wdata⟩,
    ⟨"WR.OUT_BYTES", 0x1FF, 0x13C, fun t => .wrOutBytes t.wdata⟩ ]

/-- The write rows of the offsets 0x40 to 0xFC. -/
def writeRowsHigh : List BusRow :=
  [ ⟨"WR.OUT_BITS", 0x1FF, 0x140, fun t => .wrOutBits t.wdata⟩,
    ⟨"WR.FREQ_SEL", 0x1FF, 0x144, fun t => .wrFreqSel t.wdata⟩,
    ⟨"WR.FREQ_DATA", 0x1FF, 0x148, fun t => .wrFreqData t.wdata⟩,
    ⟨"WR.NSYM", 0x1FF, 0x14C, fun t => .wrNsym t.wdata⟩,
    ⟨"WR.CT_SEL", 0x1FF, 0x150, fun t => .wrCtSel t.wdata⟩,
    ⟨"WR.CT_LEN", 0x1FF, 0x154, fun t => .wrCtLen t.wdata⟩,
    ⟨"WR.CT_MAXLEN", 0x1FF, 0x158, fun t => .wrCtMaxlen t.wdata⟩,
    ⟨"WR.RSVD5C", 0x1FF, 0x15C, fun t => .wrRsvd5c t.wdata⟩,
    ⟨"WR.CT_WORD0", 0x1FF, 0x160, fun t => .wrCtWord0 t.wdata⟩,
    ⟨"WR.CT_WORD1", 0x1FF, 0x164, fun t => .wrCtWord1 t.wdata⟩,
    ⟨"WR.CT_WORD2", 0x1FF, 0x168, fun t => .wrCtWord2 t.wdata⟩,
    ⟨"WR.CT_WORD3", 0x1FF, 0x16C, fun t => .wrCtWord3 t.wdata⟩,
    ⟨"WR.CT_WORD4", 0x1FF, 0x170, fun t => .wrCtWord4 t.wdata⟩,
    ⟨"WR.CT_WORD5", 0x1FF, 0x174, fun t => .wrCtWord5 t.wdata⟩,
    ⟨"WR.CT_WORD6", 0x1FF, 0x178, fun t => .wrCtWord6 t.wdata⟩,
    ⟨"WR.CT_WORD7", 0x1FF, 0x17C, fun t => .wrCtWord7 t.wdata⟩,
    ⟨"WR.RSVD80", 0x180, 0x180, fun t => .wrRsvd80 t.low t.wdata⟩ ]

/-- Every BUS row of the opcode table. -/
def busRows : List BusRow := readRowsLow ++ readRowsHigh ++ writeRowsLow ++ writeRowsHigh

/-- Every CMD row of the opcode table (30_encoding.md R103, R106). -/
def cmdRows : List CmdRow :=
  [ ⟨"NOP", 0xFFFFFFFF, 0x00000000, fun _ => .nop⟩,
    ⟨"CLRF", 0xFFFFFFFF, 0x00000001, fun _ => .clrf⟩,
    ⟨"COUNT", 0xFFFFFFFF, 0x00000002, fun _ => .count⟩,
    ⟨"BUILD", 0xFFFFFFFF, 0x00000003, fun _ => .build⟩,
    ⟨"GEN", 0xFFFFFFFF, 0x00000004, fun _ => .gen⟩,
    ⟨"PACK", 0xFFFFFFFF, 0x00000005, fun _ => .pack⟩,
    ⟨"ENCODE", 0xFFFFFFFF, 0x00000006, fun _ => .encode⟩,
    ⟨"SRST", 0xFFFFFFFF, 0x00000007, fun _ => .srst⟩,
    ⟨"ILLEGAL.08", 0xFFFFFFF8, 0x00000008, fun w => .illegal08 (w.extractLsb' 0 3)⟩,
    ⟨"ILLEGAL.10", 0xFFFFFFF0, 0x00000010, fun w => .illegal10 (w.extractLsb' 0 4)⟩,
    ⟨"ILLEGAL.20", 0xFFFFFFE0, 0x00000020, fun w => .illegal20 (w.extractLsb' 0 5)⟩,
    ⟨"ILLEGAL.40", 0xFFFFFFC0, 0x00000040, fun w => .illegal40 (w.extractLsb' 0 6)⟩,
    ⟨"ILLEGAL.80", 0xFFFFFF80, 0x00000080, fun w => .illegal80 (w.extractLsb' 0 7)⟩ ]

/-- The BUS decoder (30_encoding.md R111): size, then alignment, then the rows. -/
def decodeBus (t : BusTxn) : Except Reject Instr :=
  if t.size ≠ .four then .error .badSize
  else if t.offset.extractLsb' 0 2 ≠ 0#2 then .error .unaligned
  else
    match busRows.find? (fun r => t.op &&& r.mask == r.pattern) with
    | some r => .ok (r.make t)
    | none => .error .noBusRow

/-- The CMD decoder (41_command_control.md R181). -/
def decodeCmd (w : Word) : Except Reject Instr :=
  match cmdRows.find? (fun r => w &&& r.mask == r.pattern) with
  | some r => .ok (r.make w)
  | none => .error .noCmdRow

/-- The instruction a packet stands for. -/
def decode : Packet → Except Reject Instr
  | .bus t => decodeBus t
  | .cmd w => decodeCmd w

/-- `RD` of an offset: SIZE 4, and no write data (30_encoding.md R109). -/
def readOf (offset : BitVec 8) : Packet := .bus ⟨false, offset, .four, 0⟩

/-- `WR` of an offset (30_encoding.md R109). -/
def writeOf (offset : BitVec 8) (v : Word) : Packet := .bus ⟨true, offset, .four, v⟩

/-- The packet of an instruction (30_encoding.md R103, R106, R109; 10_state.md R23). -/
def encode : Instr → Packet
  | .nop => .cmd 0x00000000
  | .clrf => .cmd 0x00000001
  | .count => .cmd 0x00000002
  | .build => .cmd 0x00000003
  | .gen => .cmd 0x00000004
  | .pack => .cmd 0x00000005
  | .encode => .cmd 0x00000006
  | .srst => .cmd 0x00000007
  | .illegal08 low => .cmd (0x00000001#29 ++ low)
  | .illegal10 low => .cmd (0x0000001#28 ++ low)
  | .illegal20 low => .cmd (0x0000001#27 ++ low)
  | .illegal40 low => .cmd (0x0000001#26 ++ low)
  | .illegal80 low => .cmd (0x0000001#25 ++ low)
  | .rdId => readOf 0x00
  | .rdVersion => readOf 0x04
  | .rdCapIbuf => readOf 0x08
  | .rdCapObuf => readOf 0x0C
  | .rdCmd => readOf 0x10
  | .rdStatus => readOf 0x14
  | .rdIrqEn => readOf 0x18
  | .rdErrCode => readOf 0x1C
  | .rdErrInfo => readOf 0x20
  | .rdErrSym => readOf 0x24
  | .rdInLen => readOf 0x28
  | .rdIbufAddr => readOf 0x2C
  | .rdIbufData => readOf 0x30
  | .rdObufAddr => readOf 0x34
  | .rdObufData => readOf 0x38
  | .rdOutBytes => readOf 0x3C
  | .rdOutBits => readOf 0x40
  | .rdFreqSel => readOf 0x44
  | .rdFreqData => readOf 0x48
  | .rdNsym => readOf 0x4C
  | .rdCtSel => readOf 0x50
  | .rdCtLen => readOf 0x54
  | .rdCtMaxlen => readOf 0x58
  | .rdCtWord0 => readOf 0x60
  | .rdCtWord1 => readOf 0x64
  | .rdCtWord2 => readOf 0x68
  | .rdCtWord3 => readOf 0x6C
  | .rdCtWord4 => readOf 0x70
  | .rdCtWord5 => readOf 0x74
  | .rdCtWord6 => readOf 0x78
  | .rdCtWord7 => readOf 0x7C
  | .wrId wdata => writeOf 0x00 wdata
  | .wrVersion wdata => writeOf 0x04 wdata
  | .wrCapIbuf wdata => writeOf 0x08 wdata
  | .wrCapObuf wdata => writeOf 0x0C wdata
  | .wrCmd wdata => writeOf 0x10 wdata
  | .wrStatus wdata => writeOf 0x14 wdata
  | .wrIrqEn wdata => writeOf 0x18 wdata
  | .wrErrCode wdata => writeOf 0x1C wdata
  | .wrErrInfo wdata => writeOf 0x20 wdata
  | .wrErrSym wdata => writeOf 0x24 wdata
  | .wrInLen wdata => writeOf 0x28 wdata
  | .wrIbufAddr wdata => writeOf 0x2C wdata
  | .wrIbufData wdata => writeOf 0x30 wdata
  | .wrObufAddr wdata => writeOf 0x34 wdata
  | .wrObufData wdata => writeOf 0x38 wdata
  | .wrOutBytes wdata => writeOf 0x3C wdata
  | .wrOutBits wdata => writeOf 0x40 wdata
  | .wrFreqSel wdata => writeOf 0x44 wdata
  | .wrFreqData wdata => writeOf 0x48 wdata
  | .wrNsym wdata => writeOf 0x4C wdata
  | .wrCtSel wdata => writeOf 0x50 wdata
  | .wrCtLen wdata => writeOf 0x54 wdata
  | .wrCtMaxlen wdata => writeOf 0x58 wdata
  | .wrCtWord0 wdata => writeOf 0x60 wdata
  | .wrCtWord1 wdata => writeOf 0x64 wdata
  | .wrCtWord2 wdata => writeOf 0x68 wdata
  | .wrCtWord3 wdata => writeOf 0x6C wdata
  | .wrCtWord4 wdata => writeOf 0x70 wdata
  | .wrCtWord5 wdata => writeOf 0x74 wdata
  | .wrCtWord6 wdata => writeOf 0x78 wdata
  | .wrCtWord7 wdata => writeOf 0x7C wdata
  | .rdRsvd5c => readOf 0x5C
  | .rdRsvd80 low => readOf (1#1 ++ low)
  | .wrRsvd5c wdata => writeOf 0x5C wdata
  | .wrRsvd80 low wdata => writeOf (1#1 ++ low) wdata

/-- The packet of a table word: a row of at most two bytes is a BUS row's operation code, with SIZE 4
and WDATA 0; a longer one is a CMD word (notes/assumptions/15.md). None where the number has more bits
than the format. -/
def tablePacket (nbits w : Nat) : Option Packet :=
  if nbits ≤ 16 then
    if w < 512 then some (.bus ⟨Nat.testBit w 8, BitVec.ofNat 8 w, .four, 0⟩) else none
  else
    if w < 4294967296 then some (.cmd (BitVec.ofNat 32 w)) else none

/-- The instruction the decoder reads from an opcode-table word. -/
def decodeTableWord (nbits w : Nat) : Option Instr :=
  match tablePacket nbits w with
  | some p => (decode p).toOption
  | none => none

end Sys2Proof
end

