-- ==== Sys2Proof/Config.lean ====
section
/-! DEFINITION. What an instance fixes (00_scope.md R9) and the free values (00_scope.md R14, `draw()`). -/

namespace Sys2Proof

namespace Config

/-- The free values: bit vector number `index` of the draw with the number `draw`, `w` bits wide.
It has no body, so nothing can be proved of the value it gives
(93_implementation_defined.md, "any value"; notes/assumptions/1.md, DESIGN CHOICE). -/
opaque freeBits (w draw index : Nat) : BitVec w

/-- The parameters of an instance. Each legal value is 4..28 (00_scope.md R9), held as the excess
over 4, so that no illegal instance can be written (notes/assumptions/3.md, DESIGN CHOICE). -/
structure Params where
  ibufAwLess4 : Fin 25
  obufAwLess4 : Fin 25
deriving DecidableEq, Repr

namespace Params

/-- `P_IBUF_AW`. -/
def ibufAw (p : Params) : Nat := 4 + p.ibufAwLess4.val

/-- `P_OBUF_AW`. -/
def obufAw (p : Params) : Nat := 4 + p.obufAwLess4.val

/-- `P_IBUF_BYTES = 2^P_IBUF_AW`. -/
def ibufBytes (p : Params) : Nat := 2 ^ p.ibufAw

/-- `P_OBUF_BYTES = 2^P_OBUF_AW`. -/
def obufBytes (p : Params) : Nat := 2 ^ p.obufAw

/-- The values the spec assumes when none is given: 16 and 16 (00_scope.md R9). -/
def assumed : Params := ⟨12, 12⟩

end Params

end Config

end Sys2Proof
end

