-- ==== Sys2Proof/Machine/State.lean ====
section
/-! DEFINITION. The state: the record of 10_state.md R20, then the model's own fields. Plain data. -/

namespace Sys2Proof.Machine

/-- A memory, sparsely: the listed cells hold what was written since the whole contents were last
drawn, and `draw` is the number of that draw (93_implementation_defined.md U1, U3;
notes/assumptions/2.md). A memory of bytes lists `Host.Cell`s. -/
structure Memory (α : Type) where
  draw  : Nat
  cells : List (Nat × α)
deriving DecidableEq, Repr

/-- One NODE entry, the source's tagged variant (10_state.md R52). The fields R52 calls unused in a
leaf or in an internal node are not stored (notes/assumptions/9.md, DEDUCED). -/
inductive Node where
  | leaf (sym : Byte) (weight : Word)
  | internal (weight : Word) (left right : BitVec 9)
deriving DecidableEq, Repr

/-- One CT entry (10_state.md R56). `code` holds the code bits, first bit first (00_scope.md R12). -/
structure CodeEntry where
  valid : Bool
  len   : BitVec 8
  code  : List Bool
deriving DecidableEq, Repr

/-- The entry of a symbol outside the table (10_state.md R56). -/
def CodeEntry.invalid : CodeEntry := ⟨false, 0, []⟩

/-- What the bus port answered to a transaction: a read returns RDATA and the error bit, a write only
the error bit (30_encoding.md R101; 70_reset_and_hazards.md R361). -/
inductive Response where
  | idle
  | read (rdata : Word) (error : Bool)
  | write (error : Bool)
deriving DecidableEq, Repr

/-- One event of a run (20_memory.md R86): a host transaction, an engine completion, or hardware reset
(70_reset_and_hazards.md R360). -/
inductive Event where
  | bus (t : BusTxn)
  | complete
  | reset
deriving DecidableEq, Repr

/-- The machine. -/
structure State where
  /-- IBUF (R49). -/
  ibuf : Memory Byte
  /-- OBUF (R50). -/
  obuf : Memory Byte
  /-- FREQ, indexed by symbol (R51). -/
  freq : Vector Word 256
  /-- NODE (R52). -/
  node : Memory Node
  /-- ROOT (R54). -/
  root : BitVec 9
  /-- NNODES (R54). -/
  nnodes : BitVec 10
  /-- TREE_VALID (R55). -/
  treeValid : Bool
  /-- CT, indexed by symbol (R56). -/
  ct : Vector CodeEntry 256
  /-- OUT_VALID (R57). -/
  outValid : Bool
  /-- OUT_BYTES (R39). -/
  outBytes : Word
  /-- OUT_BITS (R40). -/
  outBits : Word
  /-- BUSY (R58). -/
  busy : Bool
  /-- PENDING (R58). -/
  pending : Word
  /-- DONE (R60). -/
  done : Bool
  /-- ERR (R60). -/
  err : Bool
  /-- BUSY_VIOL (R60). -/
  busyViol : Bool
  /-- LAST_OP (R59). -/
  lastOp : Byte
  /-- ERR_CODE (R31). -/
  errCode : Byte
  /-- ERR_INFO (R32). -/
  errInfo : Word
  /-- ERR_SYM (R33). -/
  errSym : Byte
  /-- IRQ_EN: DONE_IE, ERR_IE, BV_IE in bits 0, 1, 2 (R30). -/
  irqEn : BitVec 3
  /-- IN_LEN (R34). -/
  inLen : Word
  /-- IBUF_ADDR, with zeros above its P_IBUF_AW bits (R35; notes/assumptions/10.md). -/
  ibufAddr : Word
  /-- OBUF_ADDR, with zeros above its P_OBUF_AW bits (R37; notes/assumptions/10.md). -/
  obufAddr : Word
  /-- FREQ_SEL (R41). -/
  freqSel : Byte
  /-- CT_SEL (R44). -/
  ctSel : Byte
  /-- The parameters of the instance (00_scope.md R9; notes/assumptions/3.md). No step changes them. -/
  params : Config.Params
  /-- The response to the last transaction (notes/assumptions/6.md). -/
  resp : Response
  /-- The events still to come, next first (20_memory.md R86; notes/assumptions/4.md). -/
  events : List Event
  /-- How many free values have been drawn (notes/assumptions/1.md). -/
  draws : Nat
deriving DecidableEq, Repr

/-- Why the machine stops with a fault: never. The spec names no event after which the engine does not
go on (60_exceptions.md R325, R328), so the type has no constructor. -/
inductive Fault where
deriving DecidableEq, Repr

/-- Why the model gives no meaning. -/
inductive Refusal where
  /-- Raised by `exec` for an instruction that has no meaning yet; no arm raises it now. Safe: the run
  stops, and nothing follows from it. -/
  | notModelled (mnemonic : String)
deriving DecidableEq, Repr

/-- The state hardware reset leaves (10_state.md R64) in an instance with parameters `p`. IBUF, OBUF and
NODE are drawn, from the draws numbered from `d` on; the events still to come are kept. -/
def State.afterReset (p : Config.Params) (d : Nat) (events : List Event) : State where
  ibuf := ⟨d, []⟩
  obuf := ⟨d + 1, []⟩
  freq := Vector.replicate 256 0
  node := ⟨d + 2, []⟩
  root := 0
  nnodes := 0
  treeValid := false
  ct := Vector.replicate 256 CodeEntry.invalid
  outValid := false
  outBytes := 0
  outBits := 0
  busy := false
  pending := 0
  done := false
  err := false
  busyViol := false
  lastOp := 0
  errCode := 0
  errInfo := 0
  errSym := 0
  irqEn := 0
  inLen := 0
  ibufAddr := 0
  obufAddr := 0
  freqSel := 0
  ctSel := 0
  params := p
  resp := .idle
  events := events
  draws := d + 3

/-- The machine right after reset, with the parameters the spec assumes and no event to come
(10_state.md R64; 00_scope.md R9; notes/assumptions/3.md, 6.md, 15.md). -/
def State.reset : State := State.afterReset Config.Params.assumed 0 []

end Sys2Proof.Machine
end

