-- ==== Sys2Proof/Machine/Ops.lean ====
section
/-! DEFINITION. The shared operations: memories and tables, the bus response, accepting and completing a
command, recording an error and acknowledging it. -/

namespace Sys2Proof.Machine

/-! ## Memories (00_scope.md R14: `MemRead`, `MemWrite`) -/

/-- What an address no cell is listed for holds: nothing that was written. Reading it gives the free
value of the memory's draw (93_implementation_defined.md U1; notes/assumptions/2.md). -/
def Memory.unlisted {α : Type} : Option α := none

/-- The value listed for an address. -/
def lookupCell {α : Type} (a : Nat) : List (Nat × α) → Option α
  | [] => Memory.unlisted
  | c :: cs => if c.1 = a then some c.2 else lookupCell a cs

/-- The cells with one value written. -/
def insertCell {α : Type} (a : Nat) (v : α) : List (Nat × α) → List (Nat × α)
  | [] => [(a, v)]
  | c :: cs =>
    if a < c.1 then (a, v) :: c :: cs
    else if a = c.1 then (a, v) :: cs
    else c :: insertCell a v cs

/-- The value written at an address since the contents were drawn. -/
def Memory.lookup {α : Type} (m : Memory α) (a : Nat) : Option α := lookupCell a m.cells

/-- `MemWrite(M, a, 1, v)`, and `NODE[a] <- v`. -/
def Memory.write {α : Type} (m : Memory α) (a : Nat) (v : α) : Memory α :=
  { m with cells := insertCell a v m.cells }

/-- `MemRead(M, a, 1)`. -/
def Memory.readByte (m : Memory Byte) (a : Nat) : Byte :=
  (m.lookup a).getD (Config.freeBits 8 m.draw a)

/-- The NODE entry a draw leaves at an index. -/
def freeNode (draw i : Nat) : Node :=
  if Config.freeBits 1 draw i = 1#1 then
    .leaf (Config.freeBits 8 draw i) (Config.freeBits 32 draw i)
  else
    .internal (Config.freeBits 32 draw i) (Config.freeBits 9 draw (2 * i))
      (Config.freeBits 9 draw (2 * i + 1))

/-- `NODE[i]`. -/
def Memory.readNode (m : Memory Node) (i : Nat) : Node :=
  (m.lookup i).getD (freeNode m.draw i)

/-- The canonical form of a memory of `size` entries: addresses rise strictly, every one is in range,
and no listed value is what an unlisted address holds. -/
abbrev Memory.wf {α : Type} [DecidableEq α] (size : Nat) (m : Memory α) : Prop :=
  m.cells.Pairwise (fun c d => c.1 < d.1) ∧
    ∀ c ∈ m.cells, c.1 < size ∧ some c.2 ≠ Memory.unlisted

/-! ## Tables of 256 entries, indexed by symbol -/

/-- `T[s]`. -/
def entryAt {α : Type} (t : Vector α 256) (s : Byte) : α := t[s.toNat]'s.isLt

/-- `T[s] <- v`. -/
def setEntry {α : Type} (t : Vector α 256) (s : Byte) (v : α) : Vector α 256 :=
  t.set s.toNat v s.isLt

/-- `for s in 0..255: FREQ[s] <- 0`. -/
def zeroFreq : Vector Word 256 := Vector.replicate 256 0

/-- `for s in 0..255: CT[s] <- (valid 0, len 0, empty code)`. -/
def emptyCodes : Vector CodeEntry 256 := Vector.replicate 256 CodeEntry.invalid

/-- The symbols 0..255 in ascending order (00_scope.md R15). -/
def allSymbols : List Byte := (List.range 256).map (BitVec.ofNat 8)

/-- The alphabet in ascending order: the symbols with FREQ[s] ≠ 0 (42_frequency_counter.md R205). -/
def presentSymbols (freq : Vector Word 256) : List Byte :=
  allSymbols.filter (fun s => entryAt freq s ≠ 0)

/-- The alphabet size k (10_state.md R43). -/
def alphabetSize (freq : Vector Word 256) : Nat := (presentSymbols freq).length

/-- Code bit `j` of an entry, 0 at and beyond its length (10_state.md R47). -/
def CodeEntry.bit (e : CodeEntry) (j : Nat) : Bool := decide (j < e.len.toNat) && e.code.getD j false

/-- The code bits of an entry in stream order: `e.code[0..e.len-1]`. -/
def CodeEntry.bits (e : CodeEntry) : List Bool := (List.range e.len.toNat).map e.bit

/-! ## The bus response (40_host_access.md R130, R131) -/

namespace State

/-- The transaction ends with this response. -/
def respond (s : State) (r : Response) : State := { s with resp := r }

/-- The events still to come become these. -/
def withEvents (s : State) (events : List Event) : State := { s with events := events }

/-- `n` free values have been taken. -/
def drew (s : State) (n : Nat) : State := { s with draws := s.draws + n }

/-- The rejection of a write (40_host_access.md R133). -/
def violate (s : State) : State := { s with busyViol := true }

/-- The error response: RDATA 0 on a read, and no state change (40_host_access.md R131). -/
def busError (s : State) (t : BusTxn) : State :=
  s.respond (if t.write then .write true else .read 0 true)

/-! ## The life of a command (41_command_control.md) -/

/-- `Accept(w)` (41_command_control.md R180). -/
def accept (s : State) (w : Word) : State :=
  { s with pending := w, busy := true, done := false, lastOp := w.setWidth 8 }

/-- `BUSY <- 0; DONE <- 1` of a completion (41_command_control.md R182). -/
def finish (s : State) : State := { s with busy := false, done := true }

/-- `OUT_VALID <- 0; OUT_BYTES <- 0; OUT_BITS <- 0` (45_bit_packer.md R273; 46_encode_pipeline.md R300). -/
def clearOut (s : State) : State := { s with outValid := false, outBytes := 0, outBits := 0 }

/-- The acknowledge: ERR, ERR_CODE, ERR_INFO and ERR_SYM cleared together (60_exceptions.md R330). -/
def acknowledge (s : State) : State :=
  { s with err := false, errCode := 0, errInfo := 0, errSym := 0 }

end State

/-- The errors of 60_exceptions.md R320. -/
inductive ErrName where
  | illegalCmd
  | lenRange
  | emptyMap
  | weightOverflow
  | noTree
  | codebookMiss
  | obufOverflow
deriving DecidableEq, Repr

/-- The ERR_CODE of an error (60_exceptions.md R320). -/
def ErrName.code : ErrName → Byte
  | .illegalCmd => 0x01
  | .lenRange => 0x02
  | .emptyMap => 0x03
  | .weightOverflow => 0x04
  | .noTree => 0x05
  | .codebookMiss => 0x06
  | .obufOverflow => 0x07

/-- `CmdError(code, info, sym)` (00_scope.md R14). -/
structure CmdError where
  name : ErrName
  info : Word
  sym  : Byte
deriving DecidableEq, Repr

/-- How a command ends (41_command_control.md R182). -/
inductive Result where
  | ok
  | err (e : CmdError)
deriving DecidableEq, Repr

/-- Taking the engine's exception: the error record (60_exceptions.md R323). -/
def State.recordError (s : State) (e : CmdError) : State :=
  { s with err := true, errCode := e.name.code, errInfo := e.info, errSym := e.sym }

/-- A command's state updates, and how it ends. -/
abbrev Stage := State × Result

/-- `Complete()` after the command's `Execute` (41_command_control.md R182; 60_exceptions.md R323). -/
def complete (r : Stage) : State :=
  match r.2 with
  | .ok => r.1.finish
  | .err e => r.1.finish.recordError e

/-! ## Outcomes -/

/-- The outcome of an instruction. -/
abbrev Out := Host.Outcome State Fault Refusal

/-- A read that is exact whether or not BUSY = 1. -/
def readExact (s : State) (rdata : Word) : Out := .next (s.respond (.read rdata false))

/-- A read of a `DRAW_WHILE_BUSY` register (40_host_access.md R134): while BUSY = 1 a fresh free value
and no side effect, otherwise `rdata` and the state `after` its side effect. -/
def readUnlessBusy (s : State) (rdata : Word) (after : State) : Out :=
  if s.busy then .next ((s.drew 1).respond (.read (Config.freeBits 32 s.draws 0) false))
  else .next (after.respond (.read rdata false))

/-- A write that is taken, and leaves the state `after`. -/
def writeTaken (after : State) : Out := .next (after.respond (.write false))

/-- A write to a `BUSY_SENSITIVE` register (40_host_access.md R133): rejected while BUSY = 1, otherwise
it leaves the state `after`. -/
def writeUnlessBusy (s after : State) : Out :=
  if s.busy then writeTaken s.violate else writeTaken after

end Sys2Proof.Machine
end

