-- ==== Sys2Proof/Machine/Operands.lean ====
section
/-! DEFINITION. Operand forms: the WDATA bits a write takes (30_encoding.md R105), the words a read returns,
and the auto-increment of the data windows. -/

namespace Sys2Proof.Machine

/-- `wdata[7:0]`: IBUF_DATA, FREQ_SEL, CT_SEL (30_encoding.md R105). -/
def lowByte (wdata : Word) : Byte := wdata.setWidth 8

/-- `wdata[2:0]`: IRQ_EN (30_encoding.md R105). -/
def irqField (wdata : Word) : BitVec 3 := wdata.setWidth 3

/-- `wdata[aw-1:0]`, zero-extended: IBUF_ADDR and OBUF_ADDR (10_state.md R35, R37). -/
def addrField (aw : Nat) (wdata : Word) : Word := BitVec.ofNat 32 (wdata.toNat % 2 ^ aw)

/-- The address after one access: advanced by one, modulo the buffer's size (10_state.md R35, R37). -/
def nextAddr (aw : Nat) (addr : Word) : Word := BitVec.ofNat 32 ((addr.toNat + 1) % 2 ^ aw)

/-- `zext_32` of a byte. -/
def byteWord (b : Byte) : Word := b.setWidth 32

namespace State

/-- IBUF_ADDR advanced by one access (10_state.md R35). -/
def stepIbufAddr (s : State) : State :=
  { s with ibufAddr := nextAddr s.params.ibufAw s.ibufAddr }

/-- OBUF_ADDR advanced by one access (10_state.md R37). -/
def stepObufAddr (s : State) : State :=
  { s with obufAddr := nextAddr s.params.obufAw s.obufAddr }

/-- The byte of the IBUF_DATA window (10_state.md R36). -/
def ibufWindow (s : State) : Byte := s.ibuf.readByte s.ibufAddr.toNat

/-- The byte of the OBUF_DATA window (10_state.md R38). -/
def obufWindow (s : State) : Byte := s.obuf.readByte s.obufAddr.toNat

/-- The word of the FREQ_DATA window (10_state.md R42). -/
def freqWindow (s : State) : Word := entryAt s.freq s.freqSel

/-- The entry of the CT window (10_state.md R45, R47). -/
def ctWindow (s : State) : CodeEntry := entryAt s.ct s.ctSel

/-- NSYM (10_state.md R43). -/
def nsym (s : State) : Word := BitVec.ofNat 32 (alphabetSize s.freq)

/-- CT_MAXLEN: the largest len over all valid entries, or 0 (10_state.md R46). -/
def ctMaxlen (s : State) : Word :=
  BitVec.ofNat 32 (s.ct.toList.foldl (fun m e => if e.valid then max m e.len.toNat else m) 0)

end State

/-- CT_LEN of an entry: valid in bit 31, len in bits [7:0] (10_state.md R45). -/
def CodeEntry.lenWord (e : CodeEntry) : Word := BitVec.ofBool e.valid ++ (0#23 ++ e.len)

/-- CT_WORDw of an entry: code bit 32w + j in bit 31 - j (10_state.md R47). -/
def CodeEntry.word (e : CodeEntry) (w : Nat) : Word :=
  BitVec.ofBoolListBE ((List.range 32).map (fun j => e.bit (32 * w + j))) |>.setWidth 32

end Sys2Proof.Machine
end

