-- ==== Sys2Proof/Machine/Flags.lean ====
section
/-! DEFINITION. The flags: the STATUS word, write-one-to-clear, and the interrupt line. -/

namespace Sys2Proof.Machine

/-- One flag as a 32-bit 0 or 1. -/
def flagWord (b : Bool) : Word := (BitVec.ofBool b).setWidth 32

namespace State

/-- STATUS as the state has it (40_host_access.md R142). -/
def statusWord (s : State) : Word :=
  (s.lastOp.setWidth 32 <<< 8) ||| (flagWord s.outValid <<< 5) ||| (flagWord s.treeValid <<< 4) |||
    (flagWord s.busyViol <<< 3) ||| (flagWord s.err <<< 2) ||| (flagWord s.done <<< 1) |||
    flagWord s.busy

/-- STATUS with bits [5:4] replaced, as a read while BUSY = 1 returns it (40_host_access.md R134, R142). -/
def statusWordDrawn (s : State) (drawn : BitVec 2) : Word :=
  (s.statusWord &&& ~~~(0x30#32)) ||| (drawn.setWidth 32 <<< 4)

/-- The effect of `WR STATUS, v` (40_host_access.md R141): DONE, the error record and BUSY_VIOL, each
cleared where `v` has a 1. -/
def w1c (s : State) (v : Word) : State :=
  let s := if v[1] then { s with done := false } else s
  let s := if v[2] then s.acknowledge else s
  if v[3] then { s with busyViol := false } else s

/-- The IRQ output (10_state.md R62): the OR of the enabled pending bits. -/
def irq (s : State) : Bool :=
  (s.done && s.irqEn[0]) || (s.err && s.irqEn[1]) || (s.busyViol && s.irqEn[2])

end State

end Sys2Proof.Machine
end

