-- ==== Sys2Proof/Machine/CodeAccess.lean ====
section
/-! DEFINITION. The code table's readout (40_host_access.md, section 8). -/

namespace Sys2Proof.Machine

/-- `RD CT_SEL` (R164). -/
def execRdCtSel (s : State) : Out := readExact s (byteWord s.ctSel)

/-- `WR CT_SEL, v` (R165). -/
def execWrCtSel (v : Word) (s : State) : Out := writeUnlessBusy s { s with ctSel := lowByte v }

/-- `RD CT_LEN` (R166). -/
def execRdCtLen (s : State) : Out := readUnlessBusy s s.ctWindow.lenWord s

/-- `RD CT_MAXLEN` (R167). -/
def execRdCtMaxlen (s : State) : Out := readUnlessBusy s s.ctMaxlen s

/-- `RD CT_WORDw` (R168), for the w the offset names. -/
def readCodeWord (w : Nat) (s : State) : Out := readUnlessBusy s (s.ctWindow.word w) s

/-- `RD CT_WORD0` (R168). -/
def execRdCtWord0 (s : State) : Out := readCodeWord 0 s

/-- `RD CT_WORD1` (R168). -/
def execRdCtWord1 (s : State) : Out := readCodeWord 1 s

/-- `RD CT_WORD2` (R168). -/
def execRdCtWord2 (s : State) : Out := readCodeWord 2 s

/-- `RD CT_WORD3` (R168). -/
def execRdCtWord3 (s : State) : Out := readCodeWord 3 s

/-- `RD CT_WORD4` (R168). -/
def execRdCtWord4 (s : State) : Out := readCodeWord 4 s

/-- `RD CT_WORD5` (R168). -/
def execRdCtWord5 (s : State) : Out := readCodeWord 5 s

/-- `RD CT_WORD6` (R168). -/
def execRdCtWord6 (s : State) : Out := readCodeWord 6 s

/-- `RD CT_WORD7` (R168). -/
def execRdCtWord7 (s : State) : Out := readCodeWord 7 s

end Sys2Proof.Machine
end

