-- ==== Sys2Proof/Machine/Control.lean ====
section
/-! DEFINITION. The control commands NOP and SRST, and the illegal words (41_command_control.md,
section 2). The meaning of a command is its completion (R182; notes/assumptions/16.md). -/

namespace Sys2Proof.Machine

/-- `Execute(NOP)` (R185). -/
def stageNop (s : State) : Stage := (s, .ok)

/-- NOP. -/
def execNop (s : State) : Out := .next (complete (stageNop s))

/-- `Execute(SRST)` (R186). IBUF, OBUF, NODE and LAST_OP stay. -/
def stageSrst (s : State) : Stage :=
  ({ s with
      freq := zeroFreq
      ct := emptyCodes
      root := 0
      nnodes := 0
      treeValid := false
      outValid := false
      outBytes := 0
      outBits := 0
      err := false
      errCode := 0
      errInfo := 0
      errSym := 0
      busyViol := false
      irqEn := 0
      inLen := 0
      ibufAddr := 0
      obufAddr := 0
      freqSel := 0
      ctSel := 0 }, .ok)

/-- SRST. -/
def execSrst (s : State) : Out := .next (complete (stageSrst s))

/-- `Execute(ILLEGAL)` (R187): ILLEGAL_CMD with the whole word, and no other change. -/
def stageIllegal (s : State) : Stage := (s, .err ⟨.illegalCmd, s.pending, 0⟩)

/-- The completion of a word no CMD row matches, because RSVD ≠ 0 (30_encoding.md R106, R111;
notes/assumptions/8.md). -/
def execIllegalWord (s : State) : Out := .next (complete (stageIllegal s))

/-- ILLEGAL.08: opcodes 0x08..0x0F. The error info is PENDING (R187), of which `low` are the low bits. -/
def execIllegal08 (_low : BitVec 3) (s : State) : Out := .next (complete (stageIllegal s))

/-- ILLEGAL.10: opcodes 0x10..0x1F. -/
def execIllegal10 (_low : BitVec 4) (s : State) : Out := .next (complete (stageIllegal s))

/-- ILLEGAL.20: opcodes 0x20..0x3F. -/
def execIllegal20 (_low : BitVec 5) (s : State) : Out := .next (complete (stageIllegal s))

/-- ILLEGAL.40: opcodes 0x40..0x7F. -/
def execIllegal40 (_low : BitVec 6) (s : State) : Out := .next (complete (stageIllegal s))

/-- ILLEGAL.80: opcodes 0x80..0xFF. -/
def execIllegal80 (_low : BitVec 7) (s : State) : Out := .next (complete (stageIllegal s))

end Sys2Proof.Machine
end

