-- ==== Sys2Proof/Machine/CodeGen.lean ====
section
/-! DEFINITION. The Code Table Generator: GEN (44_code_table_generator.md). -/

namespace Sys2Proof.Machine

/-- `(valid 1, len |p|, code p)` (R252). -/
def CodeEntry.ofPath (p : List Bool) : CodeEntry := ⟨true, BitVec.ofNat 8 p.length, p⟩

/-- `Walk(x, p)` (R252), left before right. `fuel` bounds the depth: a tree of at most 256 leaves has
depth at most 255 (R256), so 256 nodes on a path are enough. On a NODE table that is no tree, which no
run reaches (10_state.md R63), paths longer than 255 bits record nothing (notes/assumptions/11.md). -/
def walk (node : Memory Node) : Nat → BitVec 9 → List Bool → Vector CodeEntry 256 →
    Vector CodeEntry 256
  | 0, _, _, ct => ct
  | fuel + 1, x, p, ct =>
    match node.readNode x.toNat with
    | .leaf sym _ => setEntry ct sym (CodeEntry.ofPath p)
    | .internal _ l r => walk node fuel r (p ++ [true]) (walk node fuel l (p ++ [false]) ct)

/-- The code table of the tree (R252): the single-leaf tree's symbol gets the code "0" (R253). -/
def treeCodes (node : Memory Node) (root : BitVec 9) : Vector CodeEntry 256 :=
  match node.readNode root.toNat with
  | .leaf sym _ => setEntry emptyCodes sym (CodeEntry.ofPath [false])
  | .internal _ _ _ => walk node 256 root [] emptyCodes

/-- `Execute(GEN)` (R252). -/
def stageGen (s : State) : Stage :=
  if s.treeValid then ({ s with ct := treeCodes s.node s.root }, .ok)
  else (s, .err ⟨.noTree, 0, 0⟩)

/-- GEN. -/
def execGen (s : State) : Out := .next (complete (stageGen s))

end Sys2Proof.Machine
end

