-- ==== Sys2Proof/Machine/Counter.lean ====
section
/-! DEFINITION. The Frequency Counter: CLRF and COUNT (42_frequency_counter.md). -/

namespace Sys2Proof.Machine

/-- `Execute(CLRF)` (R201). -/
def stageClrf (s : State) : Stage := ({ s with freq := zeroFreq, treeValid := false }, .ok)

/-- CLRF. -/
def execClrf (s : State) : Out := .next (complete (stageClrf s))

/-- `FREQ[s] <- FREQ[s] + 1` (R202). -/
def bumpFreq (freq : Vector Word 256) (s : Byte) : Vector Word 256 :=
  setEntry freq s (entryAt freq s + 1)

/-- The counts of the bytes at indices 0..n-1, from zero (R202). -/
def countBytes (ibuf : Memory Byte) (n : Nat) : Vector Word 256 :=
  (List.range n).foldl (fun freq i => bumpFreq freq (ibuf.readByte i)) zeroFreq

/-- `IN_LEN > P_IBUF_BYTES` (60_exceptions.md R320, LEN_RANGE). -/
def State.lenOutOfRange (s : State) : Bool := decide (s.params.ibufBytes < s.inLen.toNat)

/-- The LEN_RANGE error (60_exceptions.md R320). -/
def State.lenRangeError (s : State) : CmdError := ⟨.lenRange, s.inLen, 0⟩

/-- `Execute(COUNT)` (R202). -/
def stageCount (s : State) : Stage :=
  if s.lenOutOfRange then (s, .err s.lenRangeError)
  else ({ s with freq := countBytes s.ibuf s.inLen.toNat, treeValid := false }, .ok)

/-- COUNT. -/
def execCount (s : State) : Out := .next (complete (stageCount s))

end Sys2Proof.Machine
end

