-- ==== Sys2Proof/Machine/Packer.lean ====
section
/-! DEFINITION. The Bit Packer: PACK (45_bit_packer.md). -/

namespace Sys2Proof.Machine

/-- What PACK works on (R271, R273): the bits emitted `p`, the 8-bit accumulator ACC, its 3-bit fill
count NACC, and OBUF. -/
structure PackState where
  p    : Nat
  acc  : Byte
  nacc : BitVec 3
  obuf : Memory Byte
deriving DecidableEq, Repr

/-- One bit through the shift network (R273): a byte goes to OBUF when NACC wraps to 0. -/
def pushBit (k : PackState) (b : Bool) : PackState :=
  let acc := (k.acc <<< 1) ||| (BitVec.ofBool b).setWidth 8
  let nacc := k.nacc + 1
  let p := k.p + 1
  if nacc = 0 then ⟨p, 0, nacc, k.obuf.write (p / 8 - 1) acc⟩ else ⟨p, acc, nacc, k.obuf⟩

/-- All the bits of one code (R273). -/
def pushCode (k : PackState) (e : CodeEntry) : PackState := e.bits.foldl pushBit k

/-- The input bytes `i, i+1, ..., i+n-1` (R273): the lookup, then the capacity check (R272), then the
shift network. An error names the first byte that fails. -/
def packFrom (s : State) : Nat → Nat → PackState → Except CmdError PackState
  | 0, _, k => .ok k
  | n + 1, i, k =>
    let x := s.ibuf.readByte i
    let e := entryAt s.ct x
    if e.valid = false then .error ⟨.codebookMiss, BitVec.ofNat 32 i, x⟩
    else if 8 * s.params.obufBytes < k.p + e.len.toNat then
      .error ⟨.obufOverflow, BitVec.ofNat 32 i, x⟩
    else packFrom s n (i + 1) (pushCode k e)

/-- The last partial byte, its low bits zero (R273). -/
def flushBits (k : PackState) : Memory Byte :=
  if k.nacc ≠ 0 then k.obuf.write (k.p / 8) (k.acc <<< (8 - k.nacc.toNat)) else k.obuf

/-- `Fail` (R273): every OBUF byte is drawn, and the output is invalid (R276). -/
def State.losePacked (s : State) : State :=
  { (s.drew 1).clearOut with obuf := ⟨s.draws, []⟩ }

/-- `Execute(PACK)` (R273). -/
def stagePack (s : State) : Stage :=
  if s.lenOutOfRange then (s.clearOut, .err s.lenRangeError)
  else
    match packFrom s s.inLen.toNat 0 ⟨0, 0, 0, s.obuf⟩ with
    | .error e => (s.losePacked, .err e)
    | .ok k =>
      ({ s with
          obuf := flushBits k
          outBits := BitVec.ofNat 32 k.p
          outBytes := BitVec.ofNat 32 ((k.p + 7) / 8)
          outValid := true }, .ok)

/-- PACK. -/
def execPack (s : State) : Out := .next (complete (stagePack s))

end Sys2Proof.Machine
end

