-- ==== Sys2Proof/Machine/Tree.lean ====
section
/-! DEFINITION. The Tree Builder: BUILD (43_tree_builder.md). -/

namespace Sys2Proof.Machine

/-- The weight of a node (10_state.md R52). -/
def Node.weight : Node → Word
  | .leaf _ w => w
  | .internal w _ _ => w

/-- The weight of the node at an index. -/
def weightAt (node : Memory Node) (x : Nat) : Nat := (node.readNode x).weight.toNat

/-- The key order (R222): weight, then node index, smaller first. -/
def keyLt (node : Memory Node) (x y : Nat) : Bool :=
  decide (weightAt node x < weightAt node y) ||
    (weightAt node x == weightAt node y && decide (x < y))

/-- The index with the smallest key in a priority queue (R222); used only when it is not empty. -/
def minKey (node : Memory Node) : List Nat → Nat
  | [] => 0
  | x :: xs => xs.foldl (fun m y => if keyLt node y m then y else m) x

/-- `PQ.extractMin()` (R221): the index with the smallest key, and the queue without it. -/
def extractMin (node : Memory Node) (pq : List Nat) : Nat × List Nat :=
  (minKey node pq, pq.erase (minKey node pq))

/-- What BUILD works on: NODE, the priority queue (R221) and the next free node index. -/
structure MergeState where
  node : Memory Node
  pq   : List Nat
  idx  : Nat
deriving DecidableEq, Repr

/-- One leaf seeded (R220). -/
def seedLeaf (freq : Vector Word 256) (m : MergeState) (s : Byte) : MergeState :=
  { node := m.node.write m.idx (.leaf s (entryAt freq s)), pq := m.pq ++ [m.idx], idx := m.idx + 1 }

/-- One leaf per present symbol, in ascending order (R220). -/
def seedLeaves (freq : Vector Word 256) (node : Memory Node) : MergeState :=
  (presentSymbols freq).foldl (seedLeaf freq) ⟨node, [], 0⟩

/-- `Merge()` (R223): the first extracted becomes the left child; a sum of 2^32 or more is an error
with the index of the node being created. -/
def merge (m : MergeState) : Except Nat MergeState :=
  let (a, pq₁) := extractMin m.node m.pq
  let (b, pq₂) := extractMin m.node pq₁
  let w := weightAt m.node a + weightAt m.node b
  if 2 ^ 32 ≤ w then .error m.idx
  else
    .ok { node := m.node.write m.idx
            (.internal (BitVec.ofNat 32 w) (BitVec.ofNat 9 a) (BitVec.ofNat 9 b))
          pq := pq₂ ++ [m.idx]
          idx := m.idx + 1 }

/-- `while |PQ| >= 2: Merge()` (R224). Each merge shortens the queue by one, so `fuel`, the queue's
length, is enough. -/
def mergeAll : Nat → MergeState → Except Nat MergeState
  | 0, m => .ok m
  | fuel + 1, m =>
    if 2 ≤ m.pq.length then
      match merge m with
      | .error idx => .error idx
      | .ok m' => mergeAll fuel m'
    else .ok m

/-- `TREE_VALID <- 0; NODE, ROOT, NNODES <- draw()` (R224; notes/assumptions/12.md). NNODES keeps its
range 0..511 (10_state.md R20). -/
def State.loseTree (s : State) : State :=
  { s.drew 3 with
    treeValid := false
    node := ⟨s.draws, []⟩
    root := Config.freeBits 9 (s.draws + 1) 0
    nnodes := (Config.freeBits 9 (s.draws + 2) 0).setWidth 10 }

/-- `Execute(BUILD)` (R224). -/
def stageBuild (s : State) : Stage :=
  if alphabetSize s.freq = 0 then (s.loseTree, .err ⟨.emptyMap, 0, 0⟩)
  else
    match mergeAll (alphabetSize s.freq) (seedLeaves s.freq s.node) with
    | .error idx => (s.loseTree, .err ⟨.weightOverflow, BitVec.ofNat 32 idx, 0⟩)
    | .ok m =>
      ({ s with
          node := m.node
          root := BitVec.ofNat 9 (extractMin m.node m.pq).1
          nnodes := BitVec.ofNat 10 m.idx
          treeValid := true }, .ok)

/-- BUILD. -/
def execBuild (s : State) : Out := .next (complete (stageBuild s))

end Sys2Proof.Machine
end

