-- ==== Sys2Proof/Machine/Encode.lean ====
section
/-! DEFINITION. The encode pipeline: ENCODE (46_encode_pipeline.md). -/

namespace Sys2Proof.Machine

/-- `EmptyResult()` (R300, R301). -/
def State.emptyResult (s : State) : State :=
  { s with ct := emptyCodes, outBytes := 0, outBits := 0, outValid := true }

/-- `StageFail` (R300): an error of the BUILD or the GEN stage. -/
def stageFail (s : State) (e : CmdError) : Stage := (s.clearOut, .err e)

/-- `Execute(ENCODE)` (R300). A stage that raises an error ends it, and the effects of the stages
before stay. -/
def stageEncode (s : State) : Stage :=
  match stageCount s with
  | (s₁, .err e) => (s₁, .err e)
  | (s₁, .ok) =>
    if alphabetSize s₁.freq = 0 then (s₁.emptyResult, .ok)
    else
      match stageBuild s₁ with
      | (s₂, .err e) => stageFail s₂ e
      | (s₂, .ok) =>
        match stageGen s₂ with
        | (s₃, .err e) => stageFail s₃ e
        | (s₃, .ok) => stagePack s₃

/-- ENCODE. -/
def execEncode (s : State) : Out := .next (complete (stageEncode s))

end Sys2Proof.Machine
end

