-- ==== Sys2Proof/Machine/FrequencyAccess.lean ====
section
/-! DEFINITION. The frequency table's window (40_host_access.md, section 7). -/

namespace Sys2Proof.Machine

/-- `RD FREQ_SEL` (R159). -/
def execRdFreqSel (s : State) : Out := readExact s (byteWord s.freqSel)

/-- `WR FREQ_SEL, v` (R160). -/
def execWrFreqSel (v : Word) (s : State) : Out :=
  writeUnlessBusy s { s with freqSel := lowByte v }

/-- `RD FREQ_DATA` (R161). -/
def execRdFreqData (s : State) : Out := readUnlessBusy s s.freqWindow s

/-- `WR FREQ_DATA, v` (R162): clears TREE_VALID, even when the count does not change. -/
def execWrFreqData (v : Word) (s : State) : Out :=
  writeUnlessBusy s { s with freq := setEntry s.freq s.freqSel v, treeValid := false }

/-- `RD NSYM` (R163). -/
def execRdNsym (s : State) : Out := readUnlessBusy s s.nsym s

end Sys2Proof.Machine
end

