-- ==== Sys2Proof/Machine/Identity.lean ====
section
/-! DEFINITION. Reads of the identity and capability registers (40_host_access.md, section 2). -/

namespace Sys2Proof.Machine

/-- `RD ID` (R135; 10_state.md R24). -/
def execRdId (s : State) : Out := readExact s 0x48554646

/-- `RD VERSION` (R136; 10_state.md R25). -/
def execRdVersion (s : State) : Out := readExact s 0x00010000

/-- `RD CAP_IBUF` (R137; 10_state.md R26). -/
def execRdCapIbuf (s : State) : Out := readExact s (BitVec.ofNat 32 s.params.ibufBytes)

/-- `RD CAP_OBUF` (R138; 10_state.md R27). -/
def execRdCapObuf (s : State) : Out := readExact s (BitVec.ofNat 32 s.params.obufBytes)

end Sys2Proof.Machine
end

