-- ==== Sys2Proof/Machine/Ignored.lean ====
section
/-! DEFINITION. Reserved offsets and writes to read-only registers (40_host_access.md, section 9). -/

namespace Sys2Proof.Machine

/-- `RD` of the reserved offset 0x5C (R169). -/
def execRdRsvd5c (s : State) : Out := readExact s 0

/-- `RD` of a reserved offset in 0x80..0xFC (R169), whichever `low` names. -/
def execRdRsvd80 (_low : BitVec 7) (s : State) : Out := readExact s 0

/-- `WR` of the reserved offset 0x5C (R171): ignored, whatever the data. -/
def execWrRsvd5c (_v : Word) (s : State) : Out := writeTaken s

/-- `WR` of a reserved offset in 0x80..0xFC (R171): ignored, whatever the data. -/
def execWrRsvd80 (_low : BitVec 7) (_v : Word) (s : State) : Out := writeTaken s

/-- `WR` of a read-only register (R170): ignored, with a normal response, busy or not. -/
def writeReadOnly (_v : Word) (s : State) : Out := writeTaken s

/-- `WR ID, v` (R170). -/
def execWrId (v : Word) (s : State) : Out := writeReadOnly v s

/-- `WR VERSION, v` (R170). -/
def execWrVersion (v : Word) (s : State) : Out := writeReadOnly v s

/-- `WR CAP_IBUF, v` (R170). -/
def execWrCapIbuf (v : Word) (s : State) : Out := writeReadOnly v s

/-- `WR CAP_OBUF, v` (R170). -/
def execWrCapObuf (v : Word) (s : State) : Out := writeReadOnly v s

/-- `WR ERR_CODE, v` (R170). -/
def execWrErrCode (v : Word) (s : State) : Out := writeReadOnly v s

/-- `WR ERR_INFO, v` (R170). -/
def execWrErrInfo (v : Word) (s : State) : Out := writeReadOnly v s

/-- `WR ERR_SYM, v` (R170). -/
def execWrErrSym (v : Word) (s : State) : Out := writeReadOnly v s

/-- `WR OBUF_DATA, v` (R170). -/
def execWrObufData (v : Word) (s : State) : Out := writeReadOnly v s

/-- `WR OUT_BYTES, v` (R170). -/
def execWrOutBytes (v : Word) (s : State) : Out := writeReadOnly v s

/-- `WR OUT_BITS, v` (R170). -/
def execWrOutBits (v : Word) (s : State) : Out := writeReadOnly v s

/-- `WR NSYM, v` (R170). -/
def execWrNsym (v : Word) (s : State) : Out := writeReadOnly v s

/-- `WR CT_LEN, v` (R170). -/
def execWrCtLen (v : Word) (s : State) : Out := writeReadOnly v s

/-- `WR CT_MAXLEN, v` (R170). -/
def execWrCtMaxlen (v : Word) (s : State) : Out := writeReadOnly v s

/-- `WR CT_WORD0, v` (R170). -/
def execWrCtWord0 (v : Word) (s : State) : Out := writeReadOnly v s

/-- `WR CT_WORD1, v` (R170). -/
def execWrCtWord1 (v : Word) (s : State) : Out := writeReadOnly v s

/-- `WR CT_WORD2, v` (R170). -/
def execWrCtWord2 (v : Word) (s : State) : Out := writeReadOnly v s

/-- `WR CT_WORD3, v` (R170). -/
def execWrCtWord3 (v : Word) (s : State) : Out := writeReadOnly v s

/-- `WR CT_WORD4, v` (R170). -/
def execWrCtWord4 (v : Word) (s : State) : Out := writeReadOnly v s

/-- `WR CT_WORD5, v` (R170). -/
def execWrCtWord5 (v : Word) (s : State) : Out := writeReadOnly v s

/-- `WR CT_WORD6, v` (R170). -/
def execWrCtWord6 (v : Word) (s : State) : Out := writeReadOnly v s

/-- `WR CT_WORD7, v` (R170). -/
def execWrCtWord7 (v : Word) (s : State) : Out := writeReadOnly v s

end Sys2Proof.Machine
end

