-- ==== Sys2Proof/Machine/InputBuffer.lean ====
section
/-! DEFINITION. IN_LEN and the input buffer's window (40_host_access.md, section 5). -/

namespace Sys2Proof.Machine

/-- `RD IN_LEN` (R148). -/
def execRdInLen (s : State) : Out := readExact s s.inLen

/-- `WR IN_LEN, v` (R149): all 32 bits, unchecked. -/
def execWrInLen (v : Word) (s : State) : Out := writeUnlessBusy s { s with inLen := v }

/-- `RD IBUF_ADDR` (R150). -/
def execRdIbufAddr (s : State) : Out := readExact s s.ibufAddr

/-- `WR IBUF_ADDR, v` (R151). -/
def execWrIbufAddr (v : Word) (s : State) : Out :=
  writeUnlessBusy s { s with ibufAddr := addrField s.params.ibufAw v }

/-- `RD IBUF_DATA` (R152): the byte at IBUF_ADDR, which advances. -/
def execRdIbufData (s : State) : Out := readUnlessBusy s (byteWord s.ibufWindow) s.stepIbufAddr

/-- `WR IBUF_DATA, v` (R153): stores v[7:0] at IBUF_ADDR, which advances. -/
def execWrIbufData (v : Word) (s : State) : Out :=
  writeUnlessBusy s
    { s.stepIbufAddr with ibuf := s.ibuf.write s.ibufAddr.toNat (lowByte v) }

end Sys2Proof.Machine
end

