-- ==== Sys2Proof/Machine/OutputBuffer.lean ====
section
/-! DEFINITION. The output buffer's window and the result registers (40_host_access.md, section 6). -/

namespace Sys2Proof.Machine

/-- `RD OBUF_ADDR` (R154). -/
def execRdObufAddr (s : State) : Out := readExact s s.obufAddr

/-- `WR OBUF_ADDR, v` (R155). -/
def execWrObufAddr (v : Word) (s : State) : Out :=
  writeUnlessBusy s { s with obufAddr := addrField s.params.obufAw v }

/-- `RD OBUF_DATA` (R156): the byte at OBUF_ADDR, which advances. -/
def execRdObufData (s : State) : Out := readUnlessBusy s (byteWord s.obufWindow) s.stepObufAddr

/-- `RD OUT_BYTES` (R157). -/
def execRdOutBytes (s : State) : Out := readUnlessBusy s s.outBytes s

/-- `RD OUT_BITS` (R158). -/
def execRdOutBits (s : State) : Out := readUnlessBusy s s.outBits s

end Sys2Proof.Machine
end

