-- ==== Sys2Proof/Machine/Status.lean ====
section
/-! DEFINITION. CMD, STATUS, IRQ_EN and the error registers (40_host_access.md, sections 3 and 4). -/

namespace Sys2Proof.Machine

/-- `RD CMD` (R139). -/
def execRdCmd (s : State) : Out := readExact s 0

/-- `WR CMD, w` (R140): rejected while BUSY = 1, otherwise accepted (41_command_control.md R180). -/
def execWrCmd (w : Word) (s : State) : Out := writeUnlessBusy s (s.accept w)

/-- `RD STATUS` (R142): while BUSY = 1, bits [5:4] are a free value (R134). -/
def execRdStatus (s : State) : Out :=
  if s.busy then
    .next ((s.drew 1).respond (.read (s.statusWordDrawn (Config.freeBits 2 s.draws 0)) false))
  else readExact s s.statusWord

/-- `WR STATUS, v` (R141): taken while BUSY = 1 too. -/
def execWrStatus (v : Word) (s : State) : Out := writeTaken (s.w1c v)

/-- `RD IRQ_EN` (R143). -/
def execRdIrqEn (s : State) : Out := readExact s (s.irqEn.setWidth 32)

/-- `WR IRQ_EN, v` (R144): taken while BUSY = 1 too. -/
def execWrIrqEn (v : Word) (s : State) : Out := writeTaken { s with irqEn := irqField v }

/-- `RD ERR_CODE` (R145). -/
def execRdErrCode (s : State) : Out := readExact s (byteWord s.errCode)

/-- `RD ERR_INFO` (R146). -/
def execRdErrInfo (s : State) : Out := readExact s s.errInfo

/-- `RD ERR_SYM` (R147). -/
def execRdErrSym (s : State) : Out := readExact s (byteWord s.errSym)

end Sys2Proof.Machine
end

