-- ==== Sys2Proof/Machine/Dispatch.lean ====
section
/-! DEFINITION. One arm per instruction. -/

namespace Sys2Proof.Machine

def exec (i : Instr) (s : State) : Host.Outcome State Fault Refusal :=
  match i with
  | .nop => Sys2Proof.Machine.execNop s
  | .clrf => Sys2Proof.Machine.execClrf s
  | .count => Sys2Proof.Machine.execCount s
  | .build => Sys2Proof.Machine.execBuild s
  | .gen => Sys2Proof.Machine.execGen s
  | .pack => Sys2Proof.Machine.execPack s
  | .encode => Sys2Proof.Machine.execEncode s
  | .srst => Sys2Proof.Machine.execSrst s
  | .illegal08 low => Sys2Proof.Machine.execIllegal08 low s
  | .illegal10 low => Sys2Proof.Machine.execIllegal10 low s
  | .illegal20 low => Sys2Proof.Machine.execIllegal20 low s
  | .illegal40 low => Sys2Proof.Machine.execIllegal40 low s
  | .illegal80 low => Sys2Proof.Machine.execIllegal80 low s
  | .rdId => Sys2Proof.Machine.execRdId s
  | .rdVersion => Sys2Proof.Machine.execRdVersion s
  | .rdCapIbuf => Sys2Proof.Machine.execRdCapIbuf s
  | .rdCapObuf => Sys2Proof.Machine.execRdCapObuf s
  | .rdCmd => Sys2Proof.Machine.execRdCmd s
  | .rdStatus => Sys2Proof.Machine.execRdStatus s
  | .rdIrqEn => Sys2Proof.Machine.execRdIrqEn s
  | .rdErrCode => Sys2Proof.Machine.execRdErrCode s
  | .rdErrInfo => Sys2Proof.Machine.execRdErrInfo s
  | .rdErrSym => Sys2Proof.Machine.execRdErrSym s
  | .rdInLen => Sys2Proof.Machine.execRdInLen s
  | .rdIbufAddr => Sys2Proof.Machine.execRdIbufAddr s
  | .rdIbufData => Sys2Proof.Machine.execRdIbufData s
  | .rdObufAddr => Sys2Proof.Machine.execRdObufAddr s
  | .rdObufData => Sys2Proof.Machine.execRdObufData s
  | .rdOutBytes => Sys2Proof.Machine.execRdOutBytes s
  | .rdOutBits => Sys2Proof.Machine.execRdOutBits s
  | .rdFreqSel => Sys2Proof.Machine.execRdFreqSel s
  | .rdFreqData => Sys2Proof.Machine.execRdFreqData s
  | .rdNsym => Sys2Proof.Machine.execRdNsym s
  | .rdCtSel => Sys2Proof.Machine.execRdCtSel s
  | .rdCtLen => Sys2Proof.Machine.execRdCtLen s
  | .rdCtMaxlen => Sys2Proof.Machine.execRdCtMaxlen s
  | .rdCtWord0 => Sys2Proof.Machine.execRdCtWord0 s
  | .rdCtWord1 => Sys2Proof.Machine.execRdCtWord1 s
  | .rdCtWord2 => Sys2Proof.Machine.execRdCtWord2 s
  | .rdCtWord3 => Sys2Proof.Machine.execRdCtWord3 s
  | .rdCtWord4 => Sys2Proof.Machine.execRdCtWord4 s
  | .rdCtWord5 => Sys2Proof.Machine.execRdCtWord5 s
  | .rdCtWord6 => Sys2Proof.Machine.execRdCtWord6 s
  | .rdCtWord7 => Sys2Proof.Machine.execRdCtWord7 s
  | .wrId wdata => Sys2Proof.Machine.execWrId wdata s
  | .wrVersion wdata => Sys2Proof.Machine.execWrVersion wdata s
  | .wrCapIbuf wdata => Sys2Proof.Machine.execWrCapIbuf wdata s
  | .wrCapObuf wdata => Sys2Proof.Machine.execWrCapObuf wdata s
  | .wrCmd wdata => Sys2Proof.Machine.execWrCmd wdata s
  | .wrStatus wdata => Sys2Proof.Machine.execWrStatus wdata s
  | .wrIrqEn wdata => Sys2Proof.Machine.execWrIrqEn wdata s
  | .wrErrCode wdata => Sys2Proof.Machine.execWrErrCode wdata s
  | .wrErrInfo wdata => Sys2Proof.Machine.execWrErrInfo wdata s
  | .wrErrSym wdata => Sys2Proof.Machine.execWrErrSym wdata s
  | .wrInLen wdata => Sys2Proof.Machine.execWrInLen wdata s
  | .wrIbufAddr wdata => Sys2Proof.Machine.execWrIbufAddr wdata s
  | .wrIbufData wdata => Sys2Proof.Machine.execWrIbufData wdata s
  | .wrObufAddr wdata => Sys2Proof.Machine.execWrObufAddr wdata s
  | .wrObufData wdata => Sys2Proof.Machine.execWrObufData wdata s
  | .wrOutBytes wdata => Sys2Proof.Machine.execWrOutBytes wdata s
  | .wrOutBits wdata => Sys2Proof.Machine.execWrOutBits wdata s
  | .wrFreqSel wdata => Sys2Proof.Machine.execWrFreqSel wdata s
  | .wrFreqData wdata => Sys2Proof.Machine.execWrFreqData wdata s
  | .wrNsym wdata => Sys2Proof.Machine.execWrNsym wdata s
  | .wrCtSel wdata => Sys2Proof.Machine.execWrCtSel wdata s
  | .wrCtLen wdata => Sys2Proof.Machine.execWrCtLen wdata s
  | .wrCtMaxlen wdata => Sys2Proof.Machine.execWrCtMaxlen wdata s
  | .wrCtWord0 wdata => Sys2Proof.Machine.execWrCtWord0 wdata s
  | .wrCtWord1 wdata => Sys2Proof.Machine.execWrCtWord1 wdata s
  | .wrCtWord2 wdata => Sys2Proof.Machine.execWrCtWord2 wdata s
  | .wrCtWord3 wdata => Sys2Proof.Machine.execWrCtWord3 wdata s
  | .wrCtWord4 wdata => Sys2Proof.Machine.execWrCtWord4 wdata s
  | .wrCtWord5 wdata => Sys2Proof.Machine.execWrCtWord5 wdata s
  | .wrCtWord6 wdata => Sys2Proof.Machine.execWrCtWord6 wdata s
  | .wrCtWord7 wdata => Sys2Proof.Machine.execWrCtWord7 wdata s
  | .rdRsvd5c => Sys2Proof.Machine.execRdRsvd5c s
  | .rdRsvd80 low => Sys2Proof.Machine.execRdRsvd80 low s
  | .wrRsvd5c wdata => Sys2Proof.Machine.execWrRsvd5c wdata s
  | .wrRsvd80 low wdata => Sys2Proof.Machine.execWrRsvd80 low wdata s

end Sys2Proof.Machine
end

