-- ==== Sys2Proof/Machine/Agents.lean ====
section
/-! DEFINITION. The steps of the agents (00_scope.md R7): a host transaction, a completion, hardware reset. -/

namespace Sys2Proof.Machine

/-- One host transaction (40_host_access.md R130): the decoded instruction, or a bus error (R131). -/
def hostStep (t : BusTxn) (s : State) : Out :=
  match decode (.bus t) with
  | .ok i => exec i s
  | .error _ => .next (s.busError t)

/-- The engine's step (41_command_control.md R181, R182): the completion of PENDING. A word no row
matches completes as ILLEGAL_CMD (30_encoding.md R106). It is enabled exactly when BUSY = 1; where an
event list names it while BUSY = 0, nothing happens (notes/assumptions/5.md). -/
def engineStep (s : State) : Out :=
  if s.busy then
    match decode (.cmd s.pending) with
    | .ok i => exec i s
    | .error _ => execIllegalWord s
  else .next s

/-- Hardware reset, asserted and released (70_reset_and_hazards.md R360): a command in flight is
abandoned, and IBUF, OBUF and NODE are drawn afresh (notes/assumptions/7.md). -/
def resetStep (s : State) : State := State.afterReset s.params s.draws s.events

/-- The next event and the state without it. With no event left, the engine moves
(notes/assumptions/4.md). -/
def nextEvent (s : State) : Event × State :=
  match s.events with
  | [] => (.complete, s)
  | e :: rest => (e, s.withEvents rest)

/-- One event's step. -/
def runEvent : Event → State → Out
  | .bus t, s => hostStep t s
  | .complete, s => engineStep s
  | .reset, s => .next (resetStep s)

/-- The state in which a packet is what the next step runs: a transaction is the next event, a command
word has been accepted (41_command_control.md R180) and its completion is the next event. -/
def State.withPacket (s : State) : Packet → State
  | .bus t => s.withEvents (.bus t :: s.events)
  | .cmd w => (s.accept w).withEvents (.complete :: s.events)

end Sys2Proof.Machine
end

