-- ==== Sys2Proof/Machine/Step.lean ====
section
/-! DEFINITION. The step: the next event of the run. -/

namespace Sys2Proof.Machine

/-- One step: the next event takes its whole effect (20_memory.md R85, R86). -/
def step (s : State) : Host.Outcome State Fault Refusal :=
  runEvent (nextEvent s).1 (nextEvent s).2

/-- The state in which an opcode-table word is the next instruction (notes/assumptions/15.md). A number
with more bits than its format changes nothing. -/
def State.withFetchWord (s : State) (nbits w : Nat) : State :=
  match tablePacket nbits w with
  | some p => s.withPacket p
  | none => s

end Sys2Proof.Machine
end

