-- ==== Sys2Proof/Safety.lean ====
section
/-! DEFINITION. The terms the statements use: the input and the bit-stream, the tree and the order of its
merges, and what holds of every state of a run. -/

namespace Sys2Proof.Machine

/-! ## Input and bit-stream (45_bit_packer.md R270) -/

/-- `x_0, ..., x_(IN_LEN-1)`, with `x_i = IBUF[i]`. -/
def inputBytes (s : State) : List Byte := (List.range s.inLen.toNat).map s.ibuf.readByte

/-- The bit-stream of some input bytes: their codes, one after the other. -/
def codeStream (ct : Vector CodeEntry 256) (xs : List Byte) : List Bool :=
  xs.flatMap (fun x => (entryAt ct x).bits)

/-- The sum of all counts (43_tree_builder.md R228). -/
def totalCount (freq : Vector Word 256) : Nat :=
  (allSymbols.map (fun c => (entryAt freq c).toNat)).sum

/-! ## The tree (10_state.md R63) -/

/-- The children of a node, left first. -/
def children (node : Memory Node) (x : Nat) : List Nat :=
  match node.readNode x with
  | .leaf _ _ => []
  | .internal _ l r => [l.toNat, r.toNat]

/-- An internal node: two children with smaller indices, and their weights' sum as its weight. -/
def internalOk (node : Memory Node) (x : Nat) : Bool :=
  match node.readNode x with
  | .leaf _ _ => false
  | .internal w l r =>
    decide (l.toNat < x) && decide (r.toNat < x) &&
      w.toNat == weightAt node l.toNat + weightAt node r.toNat

/-- NODE, ROOT and NNODES hold a tree over the alphabet of FREQ, of size k (R63): the leaves at 0..k-1
in symbol order, the internal nodes at k..2k-2, and every node but the root the child of exactly one
node, on one side. -/
structure TreeOf (freq : Vector Word 256) (node : Memory Node) (root : BitVec 9)
    (nnodes : BitVec 10) : Prop where
  nonempty  : 1 ≤ alphabetSize freq
  count     : nnodes.toNat = 2 * alphabetSize freq - 1
  rootIndex : root.toNat = 2 * alphabetSize freq - 2
  leaves    : (List.range (alphabetSize freq)).map node.readNode =
                (presentSymbols freq).map (fun c => Node.leaf c (entryAt freq c))
  internals : ∀ x, alphabetSize freq ≤ x → x < 2 * alphabetSize freq - 1 →
                internalOk node x = true
  parents   : ((List.range (2 * alphabetSize freq - 1)).flatMap (children node)).Perm
                (List.range (2 * alphabetSize freq - 2))

/-- The node a path leads to (44_code_table_generator.md R251): left on 0, right on 1. -/
def follow (node : Memory Node) : Nat → List Bool → Option Node
  | x, [] => some (node.readNode x)
  | x, b :: bs =>
    match node.readNode x with
    | .leaf _ _ => none
    | .internal _ l r => follow node (if b then r.toNat else l.toNat) bs

/-! ## The order of the merges (43_tree_builder.md R221 to R224) -/

/-- The key order of R222. -/
def keyBelow (node : Memory Node) (x y : Nat) : Prop :=
  weightAt node x < weightAt node y ∨ (weightAt node x = weightAt node y ∧ x < y)

/-- The members of the priority queue when node `x` is created: the nodes before it that no node
before it has as a child. -/
def queueBefore (node : Memory Node) (x : Nat) : List Nat :=
  (List.range x).filter (fun y => !((List.range x).flatMap (children node)).contains y)

/-- The children of node `x` are the two members of the queue with the smallest keys, the smaller one
left. -/
def mergesSmallest (node : Memory Node) (x : Nat) : Prop :=
  match node.readNode x with
  | .leaf _ _ => False
  | .internal _ l r =>
    l.toNat ∈ queueBefore node x ∧ r.toNat ∈ queueBefore node x ∧
      keyBelow node l.toNat r.toNat ∧
      ∀ y ∈ queueBefore node x, y ≠ l.toNat → y ≠ r.toNat → keyBelow node r.toNat y

/-! ## What holds of every state of a run -/

/-- Registers and memories: the memories canonical and in range, the address registers in range (10_state.md
R35, R37), the error record consistent (R31, R33; 60_exceptions.md R320), a running command not yet
done (40_host_access.md R142) and with its opcode in LAST_OP (R59), NNODES in range (R20). -/
structure RegistersOk (s : State) : Prop where
  ibuf     : s.ibuf.wf s.params.ibufBytes
  obuf     : s.obuf.wf s.params.obufBytes
  node     : s.node.wf 511
  ibufAddr : s.ibufAddr.toNat < s.params.ibufBytes
  obufAddr : s.obufAddr.toNat < s.params.obufBytes
  errCode  : s.err = true ↔ s.errCode ≠ 0
  errRange : s.errCode.toNat ≤ 7
  noError  : s.err = false → s.errInfo = 0
  errSym   : s.errCode ≠ 6 → s.errCode ≠ 7 → s.errSym = 0
  running  : s.busy = true → s.done = false ∧ s.lastOp = s.pending.extractLsb' 0 8
  nnodes   : s.nnodes.toNat ≤ 511

/-- TREE_VALID means a tree over the current FREQ (10_state.md R55, R63). -/
def TreeOk (s : State) : Prop :=
  s.treeValid = true → TreeOf s.freq s.node s.root s.nnodes

/-- The code table: entries of the shape of 10_state.md R56, and no valid code a prefix of another
(44_code_table_generator.md R257). -/
structure CodesOk (ct : Vector CodeEntry 256) : Prop where
  invalid    : ∀ c, (entryAt ct c).valid = false → entryAt ct c = CodeEntry.invalid
  shape      : ∀ c, (entryAt ct c).valid = true →
                 1 ≤ (entryAt ct c).len.toNat ∧ (entryAt ct c).code.length = (entryAt ct c).len.toNat
  prefixFree : ∀ c d, (entryAt ct c).valid = true → (entryAt ct d).valid = true → c ≠ d →
                 ¬ (entryAt ct c).code <+: (entryAt ct d).code

/-- The output lengths (10_state.md R39, R40, R61; 45_bit_packer.md R274). -/
structure OutputOk (s : State) : Prop where
  absent : s.outValid = false → s.outBytes = 0 ∧ s.outBits = 0
  bytes  : s.outBytes.toNat = (s.outBits.toNat + 7) / 8
  fits   : s.outBits.toNat ≤ 8 * s.params.obufBytes

end Sys2Proof.Machine
end

