-- ==== Sys2Proof/Certificates/Slice0/Obligations.lean ====
section
/-! DEFINITION. The statements. A statement about a completion writes the whole next state, so what it does
not name is unchanged, every byte of memory included. That PENDING is unchanged too is the model's choice
(notes/assumptions/14.md). -/

open Sys2Proof Sys2Proof.Machine

/-! ## Encoding and decoding -/

/-- Decoding the packet of a well-formed instruction gives the instruction back: no operand bit of an
encoding is dropped (30_encoding.md R100, R103, R106, R109). -/
def Obligations.DecodeOfEncodeIsTheInstruction : Prop :=
  ∀ i : Instr, i.wellFormed = true → decode (encode i) = .ok i

/-- A packet that decodes is the packet of its instruction, up to the WDATA of a read, which is ignored
(30_encoding.md R101). -/
def Obligations.EncodeOfDecodeIsThePacket : Prop :=
  (∀ (w : Word) (i : Instr), decode (.cmd w) = .ok i → i.wellFormed = true ∧ encode i = .cmd w) ∧
  (∀ (t : BusTxn) (i : Instr), decode (.bus t) = .ok i →
    i.wellFormed = true ∧ encode i = .bus { t with wdata := if t.write then t.wdata else 0 })

/-- What the decoder refuses: transactions that are not aligned 32-bit accesses (R78, R131), and command
words with RSVD ≠ 0 (R106, R111). Of the BUS rows, exactly one matches an aligned offset (R130). -/
def Obligations.DecoderRefusesExactlyTheMisshaped : Prop :=
  (∀ t : BusTxn, (∃ i, decode (.bus t) = .ok i) ↔
    t.size = .four ∧ t.offset.extractLsb' 0 2 = 0) ∧
  (∀ w : Word, (∃ i, decode (.cmd w) = .ok i) ↔ w.extractLsb' 8 24 = 0) ∧
  (∀ t : BusTxn, t.offset.extractLsb' 0 2 = 0 →
    (busRows.filter (fun r => t.op &&& r.mask == r.pattern)).length = 1)

/-- Words written out from the spec's encodings (R103, R109) decode to what they stand for. -/
def Obligations.SpecWordsDecode : Prop :=
  decode (.cmd 0x00000000) = .ok .nop ∧ decode (.cmd 0x00000006) = .ok .encode ∧
  decode (.cmd 0x000000FF) = .ok (.illegal80 0x7F) ∧
  decode (.bus ⟨false, 0x14, .four, 0⟩) = .ok .rdStatus ∧
  decode (.bus ⟨true, 0x28, .four, 6⟩) = .ok (.wrInLen 6) ∧
  decode (.bus ⟨true, 0xFC, .four, 0xFFFFFFFF⟩) = .ok (.wrRsvd80 0x7C 0xFFFFFFFF)

/-! ## The step -/

/-- A step runs the decoded instruction: a transaction's when it is the next event, the pending command's
when the next event is a completion, or none is left, and BUSY = 1. While BUSY = 0 a completion is not
enabled and nothing happens (the model's choice, notes/assumptions/4.md and 5.md). -/
def Obligations.StepRunsTheDecodedInstruction : Prop :=
  ∀ (s : State) (rest : List Event) (i : Instr),
    (∀ t, s.events = .bus t :: rest → decode (.bus t) = .ok i →
      step s = exec i { s with events := rest }) ∧
    (s.events = .complete :: rest → s.busy = true → decode (.cmd s.pending) = .ok i →
      step s = exec i { s with events := rest }) ∧
    (s.events = [] → s.busy = true → decode (.cmd s.pending) = .ok i → step s = exec i s) ∧
    (s.events = .complete :: rest → s.busy = false → step s = .next { s with events := rest }) ∧
    (s.events = [] → s.busy = false → step s = .next s)

/-- A transaction with SIZE ≠ 4 or OFFSET[1:0] ≠ 0 ends with the error response and changes no state
(R131). -/
def Obligations.BusErrorChangesNothing : Prop :=
  ∀ (s : State) (t : BusTxn) (rest : List Event), s.events = .bus t :: rest →
    (t.size ≠ .four ∨ t.offset.extractLsb' 0 2 ≠ 0) →
    step s = .next { s with
      events := rest
      resp := if t.write then .write true else .read 0 true }

/-- Every step takes the head of the list of events and leaves the rest; no step, hardware reset included,
changes the parameters. All of it is the model's form: the list of events (notes/assumptions/4.md), the
parameters as a field (notes/assumptions/3.md), and a reset that keeps both (notes/assumptions/7.md). It
renders the one interleaving of R86 and the fixed parameters of R9. -/
def Obligations.StepTakesOneEvent : Prop :=
  ∀ s t : State, step s = .next t → t.events = s.events.tail ∧ t.params = s.params

/-- No instruction stops the machine, in any state (R325, R328). -/
def Obligations.NoInstructionStopsTheMachine : Prop :=
  (∀ (i : Instr) (s : State), ∃ t, exec i s = .next t) ∧ ∀ s : State, ∃ t, step s = .next t

/-- A pending command completes (R183): once the listed events are over, one more step leaves the engine
idle. The list being finite is the model's form of fairness (notes/assumptions/4.md). -/
def Obligations.PendingCommandCompletes : Prop :=
  ∀ s : State, ∃ t, core.run (s.events.length + 1) s = .next t ∧ t.busy = false ∧ t.events = []

/-! ## Reads -/

/-- The identity and capability registers (R135 to R138), exact while BUSY = 1 too. -/
def Obligations.IdentityReads : Prop :=
  decode (readOf 0x00) = .ok .rdId ∧ decode (readOf 0x04) = .ok .rdVersion ∧
  decode (readOf 0x08) = .ok .rdCapIbuf ∧ decode (readOf 0x0C) = .ok .rdCapObuf ∧
  ∀ s : State,
    exec .rdId s = .next { s with resp := .read 0x48554646 false } ∧
    exec .rdVersion s = .next { s with resp := .read 0x00010000 false } ∧
    (∃ c : Word, c.toNat = 2 ^ s.params.ibufAw ∧
      exec .rdCapIbuf s = .next { s with resp := .read c false }) ∧
    (∃ c : Word, c.toNat = 2 ^ s.params.obufAw ∧
      exec .rdCapObuf s = .next { s with resp := .read c false })

/-- The registers that read exactly, BUSY or not: CMD, IRQ_EN and the error record (R139, R143, R145 to
R147), IN_LEN, the address and select registers (R148, R150, R154, R159, R164), and the reserved
offsets (R169). -/
def Obligations.ExactReads : Prop :=
  decode (readOf 0x10) = .ok .rdCmd ∧ decode (readOf 0x18) = .ok .rdIrqEn ∧
  decode (readOf 0x1C) = .ok .rdErrCode ∧ decode (readOf 0x20) = .ok .rdErrInfo ∧
  decode (readOf 0x24) = .ok .rdErrSym ∧ decode (readOf 0x28) = .ok .rdInLen ∧
  decode (readOf 0x2C) = .ok .rdIbufAddr ∧ decode (readOf 0x34) = .ok .rdObufAddr ∧
  decode (readOf 0x44) = .ok .rdFreqSel ∧ decode (readOf 0x50) = .ok .rdCtSel ∧
  decode (readOf 0x5C) = .ok .rdRsvd5c ∧
  (∀ low : BitVec 7, low.extractLsb' 0 2 = 0 →
    decode (readOf (1#1 ++ low)) = .ok (.rdRsvd80 low)) ∧
  ∀ s : State,
    exec .rdCmd s = .next { s with resp := .read 0 false } ∧
    exec .rdIrqEn s = .next { s with resp := .read (0#29 ++ s.irqEn) false } ∧
    exec .rdErrCode s = .next { s with resp := .read (0#24 ++ s.errCode) false } ∧
    exec .rdErrInfo s = .next { s with resp := .read s.errInfo false } ∧
    exec .rdErrSym s = .next { s with resp := .read (0#24 ++ s.errSym) false } ∧
    exec .rdInLen s = .next { s with resp := .read s.inLen false } ∧
    exec .rdIbufAddr s = .next { s with resp := .read s.ibufAddr false } ∧
    exec .rdObufAddr s = .next { s with resp := .read s.obufAddr false } ∧
    exec .rdFreqSel s = .next { s with resp := .read (0#24 ++ s.freqSel) false } ∧
    exec .rdCtSel s = .next { s with resp := .read (0#24 ++ s.ctSel) false } ∧
    exec .rdRsvd5c s = .next { s with resp := .read 0 false } ∧
    ∀ low, exec (.rdRsvd80 low) s = .next { s with resp := .read 0 false }

/-- STATUS with given bits [5:4], every other bit as the state has it (10_state.md R29). -/
def statusBits (s : State) (valid : BitVec 2) : Word :=
  0#16 ++ s.lastOp ++ 0#2 ++ valid ++ BitVec.ofBool s.busyViol ++ BitVec.ofBool s.err ++
    BitVec.ofBool s.done ++ BitVec.ofBool s.busy

/-- STATUS reads its fields (R142, R29). While BUSY = 1 bits [5:4] are a draw and every other bit is
exact (R134). The read has no side effect; that it takes one fresh draw is the model's form of the draw
(notes/assumptions/13.md). -/
def Obligations.StatusRead : Prop :=
  decode (readOf 0x14) = .ok .rdStatus ∧
  ∀ s : State,
    (s.busy = false → exec .rdStatus s = .next { s with
      resp := .read (statusBits s (BitVec.ofBool s.outValid ++ BitVec.ofBool s.treeValid)) false }) ∧
    (s.busy = true → ∃ valid, exec .rdStatus s = .next { s with
      resp := .read (statusBits s valid) false
      draws := s.draws + 1 })

/-- The result registers and the FREQ window while BUSY = 0 (R157, R158, R161, R163). -/
def Obligations.ResultReads : Prop :=
  decode (readOf 0x3C) = .ok .rdOutBytes ∧ decode (readOf 0x40) = .ok .rdOutBits ∧
  decode (readOf 0x48) = .ok .rdFreqData ∧ decode (readOf 0x4C) = .ok .rdNsym ∧
  ∀ s : State, s.busy = false →
    exec .rdOutBytes s = .next { s with resp := .read s.outBytes false } ∧
    exec .rdOutBits s = .next { s with resp := .read s.outBits false } ∧
    exec .rdFreqData s = .next { s with resp := .read (entryAt s.freq s.freqSel) false } ∧
    ∃ k : Word, exec .rdNsym s = .next { s with resp := .read k false } ∧
      k.toNat = (List.range 256).countP (fun c => entryAt s.freq (BitVec.ofNat 8 c) ≠ 0)

/-- CT_LEN and CT_MAXLEN while BUSY = 0 (R166, R167). -/
def Obligations.CodeLengthReads : Prop :=
  decode (readOf 0x54) = .ok .rdCtLen ∧ decode (readOf 0x58) = .ok .rdCtMaxlen ∧
  ∀ s : State, s.busy = false →
    exec .rdCtLen s = .next { s with
      resp := .read (BitVec.ofBool (entryAt s.ct s.ctSel).valid ++ 0#23 ++
        (entryAt s.ct s.ctSel).len) false } ∧
    ∃ m : Word, exec .rdCtMaxlen s = .next { s with resp := .read m false } ∧
      (∀ c, (entryAt s.ct c).valid = true → (entryAt s.ct c).len.toNat ≤ m.toNat) ∧
      (m = 0 ∨ ∃ c, (entryAt s.ct c).valid = true ∧ (entryAt s.ct c).len.toNat = m.toNat)

/-- The reads of CT_WORD0..7. -/
def codeWordReads : List Instr :=
  [.rdCtWord0, .rdCtWord1, .rdCtWord2, .rdCtWord3, .rdCtWord4, .rdCtWord5, .rdCtWord6, .rdCtWord7]

/-- CT_WORDw while BUSY = 0 (R168): code bit 32w + j in bit 31 - j, and 0 beyond the length. -/
def Obligations.CodeWordReads : Prop :=
  ∀ (w : Nat) (i : Instr), codeWordReads[w]? = some i →
    decode (readOf (0x60 + 4 * BitVec.ofNat 8 w)) = .ok i ∧
    ∀ s : State, s.busy = false →
      ∃ rdata, exec i s = .next { s with resp := .read rdata false } ∧
        ∀ j, j < 32 → rdata.getLsbD (31 - j) =
          (decide (32 * w + j < (entryAt s.ct s.ctSel).len.toNat) &&
            (entryAt s.ct s.ctSel).code.getD (32 * w + j) false)

/-- The data windows while BUSY = 0 (R152, R156): the byte at the address, which then advances by one,
modulo the buffer's size. -/
def Obligations.DataWindowReads : Prop :=
  decode (readOf 0x30) = .ok .rdIbufData ∧ decode (readOf 0x38) = .ok .rdObufData ∧
  ∀ s : State, s.busy = false →
    (∃ a : Word, a.toNat = (s.ibufAddr.toNat + 1) % 2 ^ s.params.ibufAw ∧
      exec .rdIbufData s = .next { s with
        ibufAddr := a
        resp := .read (0#24 ++ s.ibuf.readByte s.ibufAddr.toNat) false }) ∧
    (∃ a : Word, a.toNat = (s.obufAddr.toNat + 1) % 2 ^ s.params.obufAw ∧
      exec .rdObufData s = .next { s with
        obufAddr := a
        resp := .read (0#24 ++ s.obuf.readByte s.obufAddr.toNat) false })

/-- The reads of `DRAW_WHILE_BUSY` (R134). -/
def drawWhileBusy : List Instr :=
  [.rdIbufData, .rdObufData, .rdOutBytes, .rdOutBits, .rdFreqData, .rdNsym, .rdCtLen,
    .rdCtMaxlen] ++ codeWordReads

/-- A read of a `DRAW_WHILE_BUSY` register while BUSY = 1 returns a draw and has no side effect (R134):
of the engine, nothing changes. That it takes one fresh draw is the model's form of the draw
(notes/assumptions/13.md). -/
def Obligations.BusyReadsReturnDraws : Prop :=
  ∀ s : State, s.busy = true → ∀ i ∈ drawWhileBusy,
    ∃ v, exec i s = .next { s with resp := .read v false, draws := s.draws + 1 }

/-! ## Writes -/

/-- The writes to read-only registers (R170). -/
def readOnlyWrites (v : Word) : List (BitVec 8 × Instr) :=
  [(0x00, .wrId v), (0x04, .wrVersion v), (0x08, .wrCapIbuf v), (0x0C, .wrCapObuf v),
    (0x1C, .wrErrCode v), (0x20, .wrErrInfo v), (0x24, .wrErrSym v), (0x38, .wrObufData v),
    (0x3C, .wrOutBytes v), (0x40, .wrOutBits v), (0x4C, .wrNsym v), (0x54, .wrCtLen v),
    (0x58, .wrCtMaxlen v)] ++
  [(0x60, .wrCtWord0 v), (0x64, .wrCtWord1 v), (0x68, .wrCtWord2 v), (0x6C, .wrCtWord3 v),
    (0x70, .wrCtWord4 v), (0x74, .wrCtWord5 v), (0x78, .wrCtWord6 v), (0x7C, .wrCtWord7 v)]

/-- Writes to read-only registers and reserved offsets are ignored, busy or not, and set no BUSY_VIOL
(R170, R171). -/
def Obligations.IgnoredWritesChangeNothing : Prop :=
  ∀ (s : State) (v : Word),
    (∀ p ∈ readOnlyWrites v, decode (writeOf p.1 v) = .ok p.2 ∧
      exec p.2 s = .next { s with resp := .write false }) ∧
    decode (writeOf 0x5C v) = .ok (.wrRsvd5c v) ∧
    exec (.wrRsvd5c v) s = .next { s with resp := .write false } ∧
    (∀ low : BitVec 7, low.extractLsb' 0 2 = 0 →
      decode (writeOf (1#1 ++ low) v) = .ok (.wrRsvd80 low v)) ∧
    ∀ low, exec (.wrRsvd80 low v) s = .next { s with resp := .write false }

/-- The writes of `BUSY_SENSITIVE` (R132). -/
def busySensitive (v : Word) : List (BitVec 8 × Instr) :=
  [(0x10, .wrCmd v), (0x28, .wrInLen v), (0x2C, .wrIbufAddr v), (0x30, .wrIbufData v),
    (0x34, .wrObufAddr v), (0x44, .wrFreqSel v), (0x48, .wrFreqData v), (0x50, .wrCtSel v)]

/-- A write to a `BUSY_SENSITIVE` register while BUSY = 1 is rejected (R132, R133): BUSY_VIOL becomes 1,
nothing else changes, the response has no error, and IRQ is raised when BV_IE = 1. -/
def Obligations.BusyWritesAreRejected : Prop :=
  ∀ (s : State) (v : Word), s.busy = true → ∀ p ∈ busySensitive v,
    decode (writeOf p.1 v) = .ok p.2 ∧
    ∃ t, exec p.2 s = .next t ∧ t = { s with busyViol := true, resp := .write false } ∧
      (s.irqEn.getLsbD 2 = true → t.irq = true)

/-- Acceptance (R180): a CMD write while BUSY = 0 takes every word, legal or not, and changes only the
sequencing state. -/
def Obligations.CommandAcceptance : Prop :=
  ∀ (s : State) (w : Word), s.busy = false →
    decode (writeOf 0x10 w) = .ok (.wrCmd w) ∧
    exec (.wrCmd w) s = .next { s with
      pending := w
      busy := true
      done := false
      lastOp := w.extractLsb' 0 8
      resp := .write false }

/-- IN_LEN, the address registers and the select registers while BUSY = 0 (R149, R151, R155, R160,
R165): the WDATA bits above the register's width are dropped. -/
def Obligations.RegisterWrites : Prop :=
  ∀ (s : State) (v : Word), s.busy = false →
    decode (writeOf 0x28 v) = .ok (.wrInLen v) ∧ decode (writeOf 0x2C v) = .ok (.wrIbufAddr v) ∧
    decode (writeOf 0x34 v) = .ok (.wrObufAddr v) ∧ decode (writeOf 0x44 v) = .ok (.wrFreqSel v) ∧
    decode (writeOf 0x50 v) = .ok (.wrCtSel v) ∧
    exec (.wrInLen v) s = .next { s with inLen := v, resp := .write false } ∧
    (∃ a : Word, a.toNat = v.toNat % 2 ^ s.params.ibufAw ∧
      exec (.wrIbufAddr v) s = .next { s with ibufAddr := a, resp := .write false }) ∧
    (∃ a : Word, a.toNat = v.toNat % 2 ^ s.params.obufAw ∧
      exec (.wrObufAddr v) s = .next { s with obufAddr := a, resp := .write false }) ∧
    exec (.wrFreqSel v) s = .next { s with freqSel := v.extractLsb' 0 8, resp := .write false } ∧
    exec (.wrCtSel v) s = .next { s with ctSel := v.extractLsb' 0 8, resp := .write false }

/-- `WR STATUS, v` clears DONE, the error record and BUSY_VIOL where `v` has a 1 in bit 1, 2 or 3, and
nothing else, busy or not (R141, R330). -/
def Obligations.StatusWriteClears : Prop :=
  ∀ (s : State) (v : Word),
    decode (writeOf 0x14 v) = .ok (.wrStatus v) ∧
    exec (.wrStatus v) s = .next { s with
      done := s.done && !v.getLsbD 1
      err := s.err && !v.getLsbD 2
      errCode := if v.getLsbD 2 then 0 else s.errCode
      errInfo := if v.getLsbD 2 then 0 else s.errInfo
      errSym := if v.getLsbD 2 then 0 else s.errSym
      busyViol := s.busyViol && !v.getLsbD 3
      resp := .write false }

/-- `WR IRQ_EN, v` stores v[2:0], busy or not (R144). An enable whose status bit is set asserts IRQ at
once. -/
def Obligations.IrqEnableWrite : Prop :=
  ∀ (s : State) (v : Word),
    decode (writeOf 0x18 v) = .ok (.wrIrqEn v) ∧
    ∃ t, exec (.wrIrqEn v) s = .next t ∧
      t = { s with irqEn := v.extractLsb' 0 3, resp := .write false } ∧
      (t.irq = true ↔ (s.done = true ∧ v.getLsbD 0 = true) ∨ (s.err = true ∧ v.getLsbD 1 = true) ∨
        (s.busyViol = true ∧ v.getLsbD 2 = true))

/-- A FREQ_DATA write while BUSY = 0 (R162) stores all 32 bits in the selected entry and clears
TREE_VALID, even when the count does not change. -/
def Obligations.FrequencyWrite : Prop :=
  ∀ (s : State) (v : Word), s.busy = false →
    decode (writeOf 0x48 v) = .ok (.wrFreqData v) ∧
    ∃ t, exec (.wrFreqData v) s = .next t ∧
      t = { s with freq := t.freq, treeValid := false, resp := .write false } ∧
      entryAt t.freq s.freqSel = v ∧ ∀ c, c ≠ s.freqSel → entryAt t.freq c = entryAt s.freq c

/-- An IBUF_DATA write while BUSY = 0 (R153) stores v[7:0] at IBUF_ADDR, which advances; every other byte
reads as before. -/
def Obligations.InputByteWrite : Prop :=
  ∀ (s : State) (v : Word), s.busy = false →
    decode (writeOf 0x30 v) = .ok (.wrIbufData v) ∧
    ∃ t, exec (.wrIbufData v) s = .next t ∧
      t = { s with ibuf := t.ibuf, ibufAddr := t.ibufAddr, resp := .write false } ∧
      t.ibufAddr.toNat = (s.ibufAddr.toNat + 1) % 2 ^ s.params.ibufAw ∧
      t.ibuf.readByte s.ibufAddr.toNat = v.extractLsb' 0 8 ∧
      ∀ a, a ≠ s.ibufAddr.toNat → t.ibuf.readByte a = s.ibuf.readByte a

/-! ## Control commands and reset -/

/-- SRST (R186, R182): everything but IBUF, OBUF, NODE, LAST_OP, PENDING and DONE takes its reset value;
IBUF, OBUF, NODE and LAST_OP stay, DONE is 1 and raises no IRQ, and STATUS reads 0x00000702. While
BUSY = 1 the CMD write of SRST is rejected. That PENDING keeps its word is the model's choice
(notes/assumptions/14.md). -/
def Obligations.SoftReset : Prop :=
  decode (.cmd 0x00000007) = .ok .srst ∧
  ∀ s : State,
    (∃ t, exec .srst s = .next t ∧
      t = { s with
        freq := Vector.replicate 256 0
        ct := Vector.replicate 256 ⟨false, 0, []⟩
        root := 0, nnodes := 0, treeValid := false
        outValid := false, outBytes := 0, outBits := 0
        err := false, errCode := 0, errInfo := 0, errSym := 0, busyViol := false
        irqEn := 0, inLen := 0, ibufAddr := 0, obufAddr := 0, freqSel := 0, ctSel := 0
        busy := false, done := true } ∧
      t.irq = false ∧
      (s.lastOp = 0x07 → exec .rdStatus t = .next { t with resp := .read 0x00000702 false })) ∧
    (s.busy = true →
      exec (.wrCmd 0x00000007) s = .next { s with busyViol := true, resp := .write false })

/-- The state after completing an illegal word (R187). -/
def illegalCompleted (s : State) : State :=
  { s with
    busy := false, done := true
    err := true, errCode := 0x01, errInfo := s.pending, errSym := 0 }

/-- The rows of the illegal opcodes (R187): ILLEGAL_CMD with the whole word, and no other change. -/
def Obligations.IllegalRowsComplete : Prop :=
  (∀ low : BitVec 3, decode (.cmd (0x1#29 ++ low)) = .ok (.illegal08 low) ∧
    ∀ s, exec (.illegal08 low) s = .next (illegalCompleted s)) ∧
  (∀ low : BitVec 4, decode (.cmd (0x1#28 ++ low)) = .ok (.illegal10 low) ∧
    ∀ s, exec (.illegal10 low) s = .next (illegalCompleted s)) ∧
  (∀ low : BitVec 5, decode (.cmd (0x1#27 ++ low)) = .ok (.illegal20 low) ∧
    ∀ s, exec (.illegal20 low) s = .next (illegalCompleted s)) ∧
  (∀ low : BitVec 6, decode (.cmd (0x1#26 ++ low)) = .ok (.illegal40 low) ∧
    ∀ s, exec (.illegal40 low) s = .next (illegalCompleted s)) ∧
  (∀ low : BitVec 7, decode (.cmd (0x1#25 ++ low)) = .ok (.illegal80 low) ∧
    ∀ s, exec (.illegal80 low) s = .next (illegalCompleted s))

/-- The completion of any word with OPCODE 0x08..0xFF or RSVD ≠ 0 (R187, R106). -/
def Obligations.IllegalWordsComplete : Prop :=
  ∀ (s : State) (rest : List Event), s.events = .complete :: rest → s.busy = true →
    (8 ≤ (s.pending.extractLsb' 0 8).toNat ∨ s.pending.extractLsb' 8 24 ≠ 0) →
    step s = .next (illegalCompleted { s with events := rest })

/-- Hardware reset, taken in any state (R360), leaves the values of R64; IBUF, OBUF and NODE hold drawn
values only. State.reset has the same values. Reset as one step that keeps the parameters is the
model's form (notes/assumptions/3.md and 7.md). -/
def Obligations.HardwareReset : Prop :=
  ∀ (s : State) (rest : List Event), s.events = .reset :: rest →
    ∃ t, step s = .next t ∧ t.params = s.params ∧
      ∀ u, (u = t ∨ u = State.reset) →
        u.ibuf.cells = [] ∧ u.obuf.cells = [] ∧ u.node.cells = [] ∧
        (∀ c, entryAt u.freq c = 0) ∧ u.root = 0 ∧ u.nnodes = 0 ∧ u.treeValid = false ∧
        (∀ c, entryAt u.ct c = ⟨false, 0, []⟩) ∧
        u.outValid = false ∧ u.outBytes = 0 ∧ u.outBits = 0 ∧
        u.busy = false ∧ u.pending = 0 ∧ u.done = false ∧ u.err = false ∧ u.busyViol = false ∧
        u.lastOp = 0 ∧ u.errCode = 0 ∧ u.errInfo = 0 ∧ u.errSym = 0 ∧ u.irqEn = 0 ∧
        u.inLen = 0 ∧ u.ibufAddr = 0 ∧ u.obufAddr = 0 ∧ u.freqSel = 0 ∧ u.ctSel = 0

/-! ## Frequency Counter -/

/-- NOP completes with no effect but the completion (R185); CLRF clears FREQ and TREE_VALID, and nothing
else (R201). -/
def Obligations.NopAndClearComplete : Prop :=
  decode (.cmd 0x00000000) = .ok .nop ∧ decode (.cmd 0x00000001) = .ok .clrf ∧
  (∀ s : State, exec .nop s = .next { s with busy := false, done := true }) ∧
  ∀ s : State, exec .clrf s = .next { s with
    freq := Vector.replicate 256 0
    treeValid := false
    busy := false, done := true }

/-- COUNT with IN_LEN in range (R202): FREQ becomes the histogram of the input, TREE_VALID 0, and nothing
else changes. -/
def Obligations.CountMakesTheHistogram : Prop :=
  decode (.cmd 0x00000002) = .ok .count ∧
  ∀ s : State, s.inLen.toNat ≤ s.params.ibufBytes →
    ∃ t, exec .count s = .next t ∧
      t = { s with freq := t.freq, treeValid := false, busy := false, done := true } ∧
      ∀ c, (entryAt t.freq c).toNat = (inputBytes s).count c

/-- After COUNT the counts sum to IN_LEN, and a count is not 0 exactly when its symbol occurs in the
input (R205); the empty input gives the empty map (R204). -/
def Obligations.CountsSumToTheLength : Prop :=
  ∀ s t : State, s.inLen.toNat ≤ s.params.ibufBytes → exec .count s = .next t →
    totalCount t.freq = s.inLen.toNat ∧ (∀ c, entryAt t.freq c ≠ 0 ↔ c ∈ inputBytes s) ∧
    (alphabetSize t.freq = 0 ↔ s.inLen = 0)

/-- COUNT depends only on the multiset of the input bytes (R206), and not on bytes at IN_LEN and above
(R203). -/
def Obligations.CountIgnoresTheOrder : Prop :=
  ∀ s₁ s₂ t₁ t₂ : State, s₁.inLen.toNat ≤ s₁.params.ibufBytes →
    s₂.inLen.toNat ≤ s₂.params.ibufBytes → (inputBytes s₁).Perm (inputBytes s₂) →
    exec .count s₁ = .next t₁ → exec .count s₂ = .next t₂ → t₁.freq = t₂.freq

/-- With IN_LEN > P_IBUF_BYTES, COUNT and ENCODE end with LEN_RANGE and change nothing else (R202, R302);
PACK ends with it too, and its output becomes invalid while OBUF stays (R273, R276). -/
def Obligations.LengthErrors : Prop :=
  ∀ s : State, s.params.ibufBytes < s.inLen.toNat →
    (∀ i ∈ [Instr.count, Instr.encode], exec i s = .next { s with
      busy := false, done := true
      err := true, errCode := 0x02, errInfo := s.inLen, errSym := 0 }) ∧
    exec .pack s = .next { s with
      outValid := false, outBytes := 0, outBits := 0
      busy := false, done := true
      err := true, errCode := 0x02, errInfo := s.inLen, errSym := 0 }

/-! ## Tree Builder -/

/-- BUILD on the empty map fails with EMPTY_MAP (R224, R227): TREE_VALID 0, NODE, ROOT and NNODES drawn,
and nothing else changes. -/
def Obligations.EmptyMapFails : Prop :=
  ∀ s : State, (∀ c, entryAt s.freq c = 0) →
    ∃ t, exec .build s = .next t ∧ t.node.cells = [] ∧
      t = { s with
        treeValid := false, node := t.node, root := t.root, nnodes := t.nnodes, draws := t.draws
        busy := false, done := true
        err := true, errCode := 0x03, errInfo := 0, errSym := 0 }

/-- The extraction order (R221, R222): from a queue that is not empty, extractMin takes the member with
the smallest (weight, index) and removes it. -/
def Obligations.ExtractMinTakesTheSmallestKey : Prop :=
  ∀ (node : Memory Node) (pq : List Nat), pq ≠ [] →
    (extractMin node pq).1 ∈ pq ∧
    (∀ y ∈ pq, y ≠ (extractMin node pq).1 → keyBelow node (extractMin node pq).1 y) ∧
    pq.Perm ((extractMin node pq).1 :: (extractMin node pq).2)

/-- BUILD on a map that is not empty and whose counts sum below 2^32 succeeds (R224, R63, R225, R228): a
tree over FREQ, with the sum as its root's weight, and nothing else changes. -/
def Obligations.BuildMakesTheTree : Prop :=
  decode (.cmd 0x00000003) = .ok .build ∧
  ∀ s : State, (∃ c, entryAt s.freq c ≠ 0) → totalCount s.freq < 2 ^ 32 →
    ∃ t, exec .build s = .next t ∧
      t = { s with
        node := t.node, root := t.root, nnodes := t.nnodes, treeValid := true
        busy := false, done := true } ∧
      TreeOf s.freq t.node t.root t.nnodes ∧ weightAt t.node t.root.toNat = totalCount s.freq

/-- Every internal node of the tree BUILD makes joins the two nodes with the smallest keys of the queue
at that moment, the smaller one left (R222, R223): the tie-break. -/
def Obligations.BuildMergesTheSmallestKeys : Prop :=
  ∀ s t : State, (∃ c, entryAt s.freq c ≠ 0) → totalCount s.freq < 2 ^ 32 →
    exec .build s = .next t →
    ∀ x, alphabetSize s.freq ≤ x → x < 2 * alphabetSize s.freq - 1 → mergesSmallest t.node x

/-- BUILD fails with WEIGHT_OVERFLOW when the counts sum to 2^32 or more (R223, R224, R228): the info is
the index of some internal node, between k and 2k-2, TREE_VALID is 0, and NODE, ROOT and NNODES are
drawn (notes/assumptions/12.md). -/
def Obligations.BuildOverflows : Prop :=
  ∀ s : State, 2 ^ 32 ≤ totalCount s.freq →
    ∃ t, exec .build s = .next t ∧ t.node.cells = [] ∧
      alphabetSize s.freq ≤ t.errInfo.toNat ∧ t.errInfo.toNat < 2 * alphabetSize s.freq - 1 ∧
      t = { s with
        treeValid := false, node := t.node, root := t.root, nnodes := t.nnodes, draws := t.draws
        busy := false, done := true
        err := true, errCode := 0x04, errInfo := t.errInfo, errSym := 0 }

/-- BUILD is a function of FREQ alone (R230): on equal FREQ it gives equal entries at 0..NNODES-1, ROOT
and NNODES, whatever NODE held before. -/
def Obligations.BuildDependsOnFreqOnly : Prop :=
  ∀ s₁ s₂ t₁ t₂ : State, s₁.freq = s₂.freq → exec .build s₁ = .next t₁ →
    exec .build s₂ = .next t₂ → t₁.treeValid = true →
    t₂.treeValid = true ∧ t₁.root = t₂.root ∧ t₁.nnodes = t₂.nnodes ∧
    ∀ x, x < t₁.nnodes.toNat → t₁.node.readNode x = t₂.node.readNode x

/-! ## Code Table Generator -/

/-- GEN without a tree fails with NO_TREE and leaves CT (R252). -/
def Obligations.GenWithoutATreeFails : Prop :=
  ∀ s : State, s.treeValid = false →
    exec .gen s = .next { s with
      busy := false, done := true
      err := true, errCode := 0x05, errInfo := 0, errSym := 0 }

/-- GEN on a tree over FREQ (R250 to R254, R256): it changes only CT; a symbol has a valid entry exactly
when it is in the alphabet; its code is its leaf's path from the root, or "0" when it is alone; the
others are invalid. TREE_VALID stays (R259). -/
def Obligations.GenAssignsThePaths : Prop :=
  decode (.cmd 0x00000004) = .ok .gen ∧
  ∀ s : State, s.treeValid = true →
    ∃ t, exec .gen s = .next t ∧ t = { s with ct := t.ct, busy := false, done := true } ∧
      (TreeOf s.freq s.node s.root s.nnodes → ∀ c,
        (entryAt s.freq c = 0 → entryAt t.ct c = ⟨false, 0, []⟩) ∧
        (entryAt s.freq c ≠ 0 →
          (entryAt t.ct c).valid = true ∧
          (entryAt t.ct c).len.toNat = (entryAt t.ct c).code.length ∧
          (alphabetSize s.freq = 1 → (entryAt t.ct c).code = [false]) ∧
          (1 < alphabetSize s.freq →
            follow s.node s.root.toNat (entryAt t.ct c).code =
              some (.leaf c (entryAt s.freq c)) ∧
            1 ≤ (entryAt t.ct c).code.length ∧
            (entryAt t.ct c).code.length ≤ alphabetSize s.freq - 1)))

/-! ## Bit Packer -/

/-- PACK of an input whose bytes all have codes, which fit in OBUF (R270, R273 to R275): the bit-stream
packed most significant bit first, the last byte zero-padded, OUT_BITS and OUT_BYTES its lengths; the
bytes of OBUF beyond keep their values, and nothing else changes. -/
def Obligations.PackWritesTheStream : Prop :=
  decode (.cmd 0x00000005) = .ok .pack ∧
  ∀ s : State, s.inLen.toNat ≤ s.params.ibufBytes →
    (∀ x ∈ inputBytes s, (entryAt s.ct x).valid = true) →
    (codeStream s.ct (inputBytes s)).length ≤ 8 * s.params.obufBytes →
    ∃ t, exec .pack s = .next t ∧
      t = { s with
        obuf := t.obuf, outBits := t.outBits, outBytes := t.outBytes, outValid := true
        busy := false, done := true } ∧
      t.outBits.toNat = (codeStream s.ct (inputBytes s)).length ∧
      t.outBits.toNat = ((inputBytes s).map (fun x => (entryAt s.ct x).len.toNat)).sum ∧
      t.outBytes.toNat = (t.outBits.toNat + 7) / 8 ∧
      (∀ b j, b < t.outBytes.toNat → j < 8 →
        (t.obuf.readByte b).getLsbD (7 - j) =
          (codeStream s.ct (inputBytes s)).getD (8 * b + j) false) ∧
      ∀ b, t.outBytes.toNat ≤ b → t.obuf.readByte b = s.obuf.readByte b

/-- The state after a PACK that fails with a given error: the output invalid, OBUF drawn (R273, R276). -/
def packFailed (s t : State) (code : Byte) (i : Nat) : Prop :=
  exec .pack s = .next t ∧ t.obuf.cells = [] ∧
  t = { s with
    obuf := t.obuf, draws := t.draws
    outValid := false, outBytes := 0, outBits := 0
    busy := false, done := true
    err := true, errCode := code, errInfo := BitVec.ofNat 32 i, errSym := s.ibuf.readByte i }

/-- PACK fails at the first input byte without a code, with CODEBOOK_MISS, or whose code does not fit,
with OBUF_OVERFLOW (R272, R273, R276, R277, R322). -/
def Obligations.PackFailsAtTheFirstByte : Prop :=
  ∀ (s : State) (i : Nat), s.inLen.toNat ≤ s.params.ibufBytes → i < s.inLen.toNat →
    (∀ x ∈ (inputBytes s).take i, (entryAt s.ct x).valid = true) →
    (codeStream s.ct ((inputBytes s).take i)).length ≤ 8 * s.params.obufBytes →
    ((entryAt s.ct (s.ibuf.readByte i)).valid = false → ∃ t, packFailed s t 0x06 i) ∧
    ((entryAt s.ct (s.ibuf.readByte i)).valid = true →
      8 * s.params.obufBytes < (codeStream s.ct ((inputBytes s).take (i + 1))).length →
      ∃ t, packFailed s t 0x07 i)

/-- With the codes of a well-formed code table, a bit-stream has one reading (R278). -/
def Obligations.BitStreamHasOneReading : Prop :=
  ∀ (ct : Vector CodeEntry 256) (xs ys : List Byte), CodesOk ct →
    (∀ x ∈ xs, (entryAt ct x).valid = true) → (∀ y ∈ ys, (entryAt ct y).valid = true) →
    codeStream ct xs = codeStream ct ys → xs = ys

/-! ## Encode pipeline -/

/-- ENCODE of the empty input (R301): empty tables and an empty valid output, not an error; OBUF stays. -/
def Obligations.EncodeOfTheEmptyInput : Prop :=
  decode (.cmd 0x00000006) = .ok .encode ∧
  ∀ s : State, s.inLen = 0 →
    exec .encode s = .next { s with
      freq := Vector.replicate 256 0
      treeValid := false
      ct := Vector.replicate 256 ⟨false, 0, []⟩
      outBytes := 0, outBits := 0, outValid := true
      busy := false, done := true }

/-- ENCODE is the sequence of the stage commands (R300, R304), on every input that is not empty and in
range, whether or not the output fits. LAST_OP, in which R304's two runs differ, is the same here
because exec of a command is its completion alone, without the acceptance (notes/assumptions/16.md). -/
def Obligations.EncodeIsTheStageSequence : Prop :=
  ∀ s : State, s.inLen ≠ 0 → s.inLen.toNat ≤ s.params.ibufBytes →
    ∃ a b c d, exec .count s = .next a ∧ exec .build a = .next b ∧ exec .gen b = .next c ∧
      exec .pack c = .next d ∧ exec .encode s = .next d

/-- ENCODE of an input that is not empty and in range (R303): the tree and the codes are always built,
every input byte has a code, and the only error is OBUF_OVERFLOW, when the stream does not fit. -/
def Obligations.EncodeOnlyOverflows : Prop :=
  ∀ s : State, s.inLen ≠ 0 → s.inLen.toNat ≤ s.params.ibufBytes →
    ∃ t, exec .encode s = .next t ∧ t.treeValid = true ∧
      TreeOf t.freq t.node t.root t.nnodes ∧
      (∀ c, (entryAt t.freq c).toNat = (inputBytes s).count c) ∧
      (∀ x ∈ inputBytes s, (entryAt t.ct x).valid = true) ∧
      ((codeStream t.ct (inputBytes s)).length ≤ 8 * s.params.obufBytes →
        t.outValid = true ∧ t.outBits.toNat = (codeStream t.ct (inputBytes s)).length ∧
        t.err = s.err ∧ t.errCode = s.errCode ∧ t.errInfo = s.errInfo ∧ t.errSym = s.errSym) ∧
      (8 * s.params.obufBytes < (codeStream t.ct (inputBytes s)).length →
        t.outValid = false ∧ t.outBits = 0 ∧ t.outBytes = 0 ∧ t.err = true ∧ t.errCode = 0x07)

/-- ENCODE is a function of the input (R305): equal inputs give equal FREQ, tree, CT and output. -/
def Obligations.EncodeDependsOnTheInputOnly : Prop :=
  ∀ s₁ s₂ t₁ t₂ : State, s₁.params = s₂.params → s₁.inLen = s₂.inLen →
    s₁.inLen.toNat ≤ s₁.params.ibufBytes → inputBytes s₁ = inputBytes s₂ →
    exec .encode s₁ = .next t₁ → exec .encode s₂ = .next t₂ →
    t₁.freq = t₂.freq ∧ t₁.treeValid = t₂.treeValid ∧ t₁.ct = t₂.ct ∧
    (t₁.treeValid = true → t₁.root = t₂.root ∧ t₁.nnodes = t₂.nnodes ∧
      ∀ x, x < t₁.nnodes.toNat → t₁.node.readNode x = t₂.node.readNode x) ∧
    t₁.outValid = t₂.outValid ∧ t₁.outBytes = t₂.outBytes ∧ t₁.outBits = t₂.outBits ∧
    ∀ b, b < t₁.outBytes.toNat → t₁.obuf.readByte b = t₂.obuf.readByte b

/-! ## Whole-machine rules -/

/-- A completion leaves the engine idle with DONE = 1; a command other than SRST keeps the error record or
replaces it, with an error its row of the table of R321 allows (R182, R321, R324). -/
def Obligations.CommandErrorsFollowTheTable : Prop :=
  ∀ (s t : State) (w : Word) (i : Instr), decode (.cmd w) = .ok i → exec i s = .next t →
    t.busy = false ∧ t.done = true ∧
    (i = .srst ∨
      (t.err = s.err ∧ t.errCode = s.errCode ∧ t.errInfo = s.errInfo ∧ t.errSym = s.errSym) ∨
      (t.err = true ∧
        ((i = .count ∧ t.errCode = 0x02) ∨
          (i = .build ∧ (t.errCode = 0x03 ∨ t.errCode = 0x04)) ∨
          (i = .gen ∧ t.errCode = 0x05) ∨
          (i = .pack ∧ (t.errCode = 0x02 ∨ t.errCode = 0x06 ∨ t.errCode = 0x07)) ∨
          (i = .encode ∧ (t.errCode = 0x02 ∨ t.errCode = 0x07)) ∨
          (8 ≤ w.toNat ∧ t.errCode = 0x01))))

/-- While BUSY = 1 no host transaction changes what the running command reads or writes (R88, R133, R134,
R371): only the sticky flags, the error record, IRQ_EN and the response may change. -/
def Obligations.TransactionsSpareTheRunningCommand : Prop :=
  ∀ (s t : State) (txn : BusTxn) (rest : List Event), s.busy = true →
    s.events = .bus txn :: rest → step s = .next t →
    t = { s with
      done := t.done, err := t.err, errCode := t.errCode, errInfo := t.errInfo
      errSym := t.errSym, busyViol := t.busyViol, irqEn := t.irqEn
      resp := t.resp, draws := t.draws, events := rest }

/-- Who writes the memories and the tables: IBUF only an IBUF_DATA write (R71), OBUF only PACK and ENCODE
(R72), FREQ only its window, CLRF, COUNT, ENCODE and SRST (R51), NODE only BUILD and ENCODE (R52), CT only
GEN, ENCODE and SRST (R258). -/
def Obligations.WritersOfMemoriesAndTables : Prop :=
  ∀ (i : Instr) (s t : State), exec i s = .next t →
    (t.ibuf ≠ s.ibuf → ∃ v, i = .wrIbufData v) ∧
    (t.obuf ≠ s.obuf → i = .pack ∨ i = .encode) ∧
    (t.freq ≠ s.freq →
      (∃ v, i = .wrFreqData v) ∨ i = .clrf ∨ i = .count ∨ i = .encode ∨ i = .srst) ∧
    (t.node ≠ s.node → i = .build ∨ i = .encode) ∧
    (t.ct ≠ s.ct → i = .gen ∨ i = .encode ∨ i = .srst)

/-- DONE, ERR and BUSY_VIOL are sticky (R60): only a STATUS write with a 1 in the bit, acceptance (DONE
only) and SRST clear them. -/
def Obligations.StickyFlagsClearByTheirEvents : Prop :=
  ∀ (i : Instr) (s t : State), exec i s = .next t →
    (s.done = true → t.done = false →
      (∃ v, i = .wrStatus v ∧ v.getLsbD 1 = true) ∨ ∃ w, i = .wrCmd w ∧ s.busy = false) ∧
    (s.err = true → t.err = false →
      (∃ v, i = .wrStatus v ∧ v.getLsbD 2 = true) ∨ i = .srst) ∧
    (s.busyViol = true → t.busyViol = false →
      (∃ v, i = .wrStatus v ∧ v.getLsbD 3 = true) ∨ i = .srst)

/-- Hardware reset apart, only acceptance, which needs BUSY = 0, sets BUSY or changes LAST_OP, and only a
completion clears BUSY (R58, R59, R188): one command is in flight at most. That PENDING too changes only
by acceptance, while BUSY = 0 as well, is the model's choice (notes/assumptions/14.md), and so is that a
step with no event left is a completion (notes/assumptions/4.md). -/
def Obligations.OneCommandInFlight : Prop :=
  ∀ s t : State, step s = .next t → s.events.head? ≠ some .reset →
    ((s.busy = false ∧ t.busy = true) ∨ t.pending ≠ s.pending ∨ t.lastOp ≠ s.lastOp →
      s.busy = false ∧ t.busy = true ∧
      ∃ txn rest, s.events = .bus txn :: rest ∧ txn.write = true ∧ txn.offset = 0x10 ∧
        t.pending = txn.wdata ∧ t.lastOp = txn.wdata.extractLsb' 0 8) ∧
    (s.busy = true → t.busy = false → s.events = [] ∨ s.events.head? = some .complete)

/-- The interrupt line (R62, R326): it is the OR of the enabled pending bits; the completion of a command
other than SRST raises it when DONE_IE = 1, SRST's and a write of 0 to IRQ_EN leave it low. -/
def Obligations.InterruptFollowsThePendingBits : Prop :=
  (∀ s : State, s.irq = true ↔
    (s.done = true ∧ s.irqEn.getLsbD 0 = true) ∨ (s.err = true ∧ s.irqEn.getLsbD 1 = true) ∨
      (s.busyViol = true ∧ s.irqEn.getLsbD 2 = true)) ∧
  (∀ (s t : State) (w : Word) (i : Instr), decode (.cmd w) = .ok i → i ≠ .srst →
    exec i s = .next t → s.irqEn.getLsbD 0 = true → t.irq = true) ∧
  (∀ s t : State, exec .srst s = .next t → t.irq = false) ∧
  ∀ s t : State, exec (.wrIrqEn 0) s = .next t → t.irq = false

/-! ## Invariants -/

/-- The reset state meets every invariant. -/
def Obligations.ResetMeetsTheInvariants : Prop :=
  RegistersOk State.reset ∧ TreeOk State.reset ∧ CodesOk State.reset.ct ∧ OutputOk State.reset

/-- Every step keeps the registers and memories well-formed. -/
def Obligations.StepKeepsRegistersOk : Prop :=
  ∀ s t : State, RegistersOk s → step s = .next t → RegistersOk t

/-- Every step keeps TREE_VALID true to its meaning (R55, R63). -/
def Obligations.StepKeepsTreeOk : Prop :=
  ∀ s t : State, TreeOk s → step s = .next t → TreeOk t

/-- Every step keeps the code table well-formed and prefix-free (R56, R257). -/
def Obligations.StepKeepsCodesPrefixFree : Prop :=
  ∀ s t : State, CodesOk s.ct → step s = .next t → CodesOk t.ct

/-- Every step keeps the output lengths consistent (R39, R40, R61, R274). -/
def Obligations.StepKeepsOutputOk : Prop :=
  ∀ s t : State, OutputOk s → step s = .next t → OutputOk t
end

