-- ==== Sys2Proof/Laws/State.lean ====
section
/-! SUPPORT. What each update of the state writes, field by field, and what it leaves: later proofs rewrite
with these and never unfold an update. -/

set_option Elab.async false

namespace Sys2Proof.Machine.State

@[simp] theorem respond_resp (s : State) (r : Response) : (s.respond r).resp = r := rfl

/-- The fields `respond` leaves. -/
@[simp] theorem respond_same (s : State) (r : Response) :
    (s.respond r).ibuf = s.ibuf ∧ (s.respond r).obuf = s.obuf ∧ (s.respond r).freq = s.freq ∧
    (s.respond r).node = s.node ∧ (s.respond r).root = s.root ∧ (s.respond r).nnodes = s.nnodes ∧
    (s.respond r).treeValid = s.treeValid ∧ (s.respond r).ct = s.ct ∧
    (s.respond r).outValid = s.outValid ∧ (s.respond r).outBytes = s.outBytes ∧
    (s.respond r).outBits = s.outBits ∧ (s.respond r).busy = s.busy ∧
    (s.respond r).pending = s.pending ∧ (s.respond r).done = s.done ∧ (s.respond r).err = s.err ∧
    (s.respond r).busyViol = s.busyViol ∧ (s.respond r).lastOp = s.lastOp ∧
    (s.respond r).errCode = s.errCode ∧ (s.respond r).errInfo = s.errInfo ∧
    (s.respond r).errSym = s.errSym ∧ (s.respond r).irqEn = s.irqEn ∧
    (s.respond r).inLen = s.inLen ∧ (s.respond r).ibufAddr = s.ibufAddr ∧
    (s.respond r).obufAddr = s.obufAddr ∧ (s.respond r).freqSel = s.freqSel ∧
    (s.respond r).ctSel = s.ctSel ∧ (s.respond r).params = s.params ∧
    (s.respond r).events = s.events ∧ (s.respond r).draws = s.draws :=
  ⟨rfl, rfl, rfl, rfl, rfl, rfl, rfl, rfl, rfl, rfl, rfl, rfl, rfl, rfl,
    rfl, rfl, rfl, rfl, rfl, rfl, rfl, rfl, rfl, rfl, rfl, rfl, rfl, rfl, rfl⟩

@[simp] theorem withEvents_events (s : State) (l : List Event) : (s.withEvents l).events = l := rfl

/-- The fields `withEvents` leaves. -/
@[simp] theorem withEvents_same (s : State) (l : List Event) :
    (s.withEvents l).ibuf = s.ibuf ∧ (s.withEvents l).obuf = s.obuf ∧
    (s.withEvents l).freq = s.freq ∧ (s.withEvents l).node = s.node ∧
    (s.withEvents l).root = s.root ∧ (s.withEvents l).nnodes = s.nnodes ∧
    (s.withEvents l).treeValid = s.treeValid ∧ (s.withEvents l).ct = s.ct ∧
    (s.withEvents l).outValid = s.outValid ∧ (s.withEvents l).outBytes = s.outBytes ∧
    (s.withEvents l).outBits = s.outBits ∧ (s.withEvents l).busy = s.busy ∧
    (s.withEvents l).pending = s.pending ∧ (s.withEvents l).done = s.done ∧
    (s.withEvents l).err = s.err ∧ (s.withEvents l).busyViol = s.busyViol ∧
    (s.withEvents l).lastOp = s.lastOp ∧ (s.withEvents l).errCode = s.errCode ∧
    (s.withEvents l).errInfo = s.errInfo ∧ (s.withEvents l).errSym = s.errSym ∧
    (s.withEvents l).irqEn = s.irqEn ∧ (s.withEvents l).inLen = s.inLen ∧
    (s.withEvents l).ibufAddr = s.ibufAddr ∧ (s.withEvents l).obufAddr = s.obufAddr ∧
    (s.withEvents l).freqSel = s.freqSel ∧ (s.withEvents l).ctSel = s.ctSel ∧
    (s.withEvents l).params = s.params ∧ (s.withEvents l).resp = s.resp ∧
    (s.withEvents l).draws = s.draws :=
  ⟨rfl, rfl, rfl, rfl, rfl, rfl, rfl, rfl, rfl, rfl, rfl, rfl, rfl, rfl,
    rfl, rfl, rfl, rfl, rfl, rfl, rfl, rfl, rfl, rfl, rfl, rfl, rfl, rfl, rfl⟩

@[simp] theorem drew_draws (s : State) (n : Nat) : (s.drew n).draws = s.draws + n := rfl

/-- The fields `drew` leaves. -/
@[simp] theorem drew_same (s : State) (n : Nat) :
    (s.drew n).ibuf = s.ibuf ∧ (s.drew n).obuf = s.obuf ∧ (s.drew n).freq = s.freq ∧
    (s.drew n).node = s.node ∧ (s.drew n).root = s.root ∧ (s.drew n).nnodes = s.nnodes ∧
    (s.drew n).treeValid = s.treeValid ∧ (s.drew n).ct = s.ct ∧
    (s.drew n).outValid = s.outValid ∧ (s.drew n).outBytes = s.outBytes ∧
    (s.drew n).outBits = s.outBits ∧ (s.drew n).busy = s.busy ∧ (s.drew n).pending = s.pending ∧
    (s.drew n).done = s.done ∧ (s.drew n).err = s.err ∧ (s.drew n).busyViol = s.busyViol ∧
    (s.drew n).lastOp = s.lastOp ∧ (s.drew n).errCode = s.errCode ∧
    (s.drew n).errInfo = s.errInfo ∧ (s.drew n).errSym = s.errSym ∧ (s.drew n).irqEn = s.irqEn ∧
    (s.drew n).inLen = s.inLen ∧ (s.drew n).ibufAddr = s.ibufAddr ∧
    (s.drew n).obufAddr = s.obufAddr ∧ (s.drew n).freqSel = s.freqSel ∧
    (s.drew n).ctSel = s.ctSel ∧ (s.drew n).params = s.params ∧ (s.drew n).resp = s.resp ∧
    (s.drew n).events = s.events :=
  ⟨rfl, rfl, rfl, rfl, rfl, rfl, rfl, rfl, rfl, rfl, rfl, rfl, rfl, rfl,
    rfl, rfl, rfl, rfl, rfl, rfl, rfl, rfl, rfl, rfl, rfl, rfl, rfl, rfl, rfl⟩

@[simp] theorem violate_busyViol (s : State) : (s.violate).busyViol = true := rfl

/-- The fields `violate` leaves. -/
@[simp] theorem violate_same (s : State) :
    (s.violate).ibuf = s.ibuf ∧ (s.violate).obuf = s.obuf ∧ (s.violate).freq = s.freq ∧
    (s.violate).node = s.node ∧ (s.violate).root = s.root ∧ (s.violate).nnodes = s.nnodes ∧
    (s.violate).treeValid = s.treeValid ∧ (s.violate).ct = s.ct ∧
    (s.violate).outValid = s.outValid ∧ (s.violate).outBytes = s.outBytes ∧
    (s.violate).outBits = s.outBits ∧ (s.violate).busy = s.busy ∧
    (s.violate).pending = s.pending ∧ (s.violate).done = s.done ∧ (s.violate).err = s.err ∧
    (s.violate).lastOp = s.lastOp ∧ (s.violate).errCode = s.errCode ∧
    (s.violate).errInfo = s.errInfo ∧ (s.violate).errSym = s.errSym ∧
    (s.violate).irqEn = s.irqEn ∧ (s.violate).inLen = s.inLen ∧
    (s.violate).ibufAddr = s.ibufAddr ∧ (s.violate).obufAddr = s.obufAddr ∧
    (s.violate).freqSel = s.freqSel ∧ (s.violate).ctSel = s.ctSel ∧
    (s.violate).params = s.params ∧ (s.violate).resp = s.resp ∧ (s.violate).events = s.events ∧
    (s.violate).draws = s.draws :=
  ⟨rfl, rfl, rfl, rfl, rfl, rfl, rfl, rfl, rfl, rfl, rfl, rfl, rfl, rfl,
    rfl, rfl, rfl, rfl, rfl, rfl, rfl, rfl, rfl, rfl, rfl, rfl, rfl, rfl, rfl⟩

@[simp] theorem accept_pending (s : State) (w : Word) : (s.accept w).pending = w := rfl

@[simp] theorem accept_busy (s : State) (w : Word) : (s.accept w).busy = true := rfl

@[simp] theorem accept_done (s : State) (w : Word) : (s.accept w).done = false := rfl

@[simp] theorem accept_lastOp (s : State) (w : Word) : (s.accept w).lastOp = w.setWidth 8 := rfl

/-- The fields `accept` leaves. -/
@[simp] theorem accept_same (s : State) (w : Word) :
    (s.accept w).ibuf = s.ibuf ∧ (s.accept w).obuf = s.obuf ∧ (s.accept w).freq = s.freq ∧
    (s.accept w).node = s.node ∧ (s.accept w).root = s.root ∧ (s.accept w).nnodes = s.nnodes ∧
    (s.accept w).treeValid = s.treeValid ∧ (s.accept w).ct = s.ct ∧
    (s.accept w).outValid = s.outValid ∧ (s.accept w).outBytes = s.outBytes ∧
    (s.accept w).outBits = s.outBits ∧ (s.accept w).err = s.err ∧
    (s.accept w).busyViol = s.busyViol ∧ (s.accept w).errCode = s.errCode ∧
    (s.accept w).errInfo = s.errInfo ∧ (s.accept w).errSym = s.errSym ∧
    (s.accept w).irqEn = s.irqEn ∧ (s.accept w).inLen = s.inLen ∧
    (s.accept w).ibufAddr = s.ibufAddr ∧ (s.accept w).obufAddr = s.obufAddr ∧
    (s.accept w).freqSel = s.freqSel ∧ (s.accept w).ctSel = s.ctSel ∧
    (s.accept w).params = s.params ∧ (s.accept w).resp = s.resp ∧
    (s.accept w).events = s.events ∧ (s.accept w).draws = s.draws :=
  ⟨rfl, rfl, rfl, rfl, rfl, rfl, rfl, rfl, rfl, rfl, rfl, rfl, rfl,
    rfl, rfl, rfl, rfl, rfl, rfl, rfl, rfl, rfl, rfl, rfl, rfl, rfl⟩

@[simp] theorem finish_busy (s : State) : (s.finish).busy = false := rfl

@[simp] theorem finish_done (s : State) : (s.finish).done = true := rfl

/-- The fields `finish` leaves. -/
@[simp] theorem finish_same (s : State) :
    (s.finish).ibuf = s.ibuf ∧ (s.finish).obuf = s.obuf ∧ (s.finish).freq = s.freq ∧
    (s.finish).node = s.node ∧ (s.finish).root = s.root ∧ (s.finish).nnodes = s.nnodes ∧
    (s.finish).treeValid = s.treeValid ∧ (s.finish).ct = s.ct ∧
    (s.finish).outValid = s.outValid ∧ (s.finish).outBytes = s.outBytes ∧
    (s.finish).outBits = s.outBits ∧ (s.finish).pending = s.pending ∧ (s.finish).err = s.err ∧
    (s.finish).busyViol = s.busyViol ∧ (s.finish).lastOp = s.lastOp ∧
    (s.finish).errCode = s.errCode ∧ (s.finish).errInfo = s.errInfo ∧
    (s.finish).errSym = s.errSym ∧ (s.finish).irqEn = s.irqEn ∧ (s.finish).inLen = s.inLen ∧
    (s.finish).ibufAddr = s.ibufAddr ∧ (s.finish).obufAddr = s.obufAddr ∧
    (s.finish).freqSel = s.freqSel ∧ (s.finish).ctSel = s.ctSel ∧ (s.finish).params = s.params ∧
    (s.finish).resp = s.resp ∧ (s.finish).events = s.events ∧ (s.finish).draws = s.draws :=
  ⟨rfl, rfl, rfl, rfl, rfl, rfl, rfl, rfl, rfl, rfl, rfl, rfl, rfl, rfl,
    rfl, rfl, rfl, rfl, rfl, rfl, rfl, rfl, rfl, rfl, rfl, rfl, rfl, rfl⟩

@[simp] theorem clearOut_outValid (s : State) : (s.clearOut).outValid = false := rfl

@[simp] theorem clearOut_outBytes (s : State) : (s.clearOut).outBytes = 0 := rfl

@[simp] theorem clearOut_outBits (s : State) : (s.clearOut).outBits = 0 := rfl

/-- The fields `clearOut` leaves. -/
@[simp] theorem clearOut_same (s : State) :
    (s.clearOut).ibuf = s.ibuf ∧ (s.clearOut).obuf = s.obuf ∧ (s.clearOut).freq = s.freq ∧
    (s.clearOut).node = s.node ∧ (s.clearOut).root = s.root ∧ (s.clearOut).nnodes = s.nnodes ∧
    (s.clearOut).treeValid = s.treeValid ∧ (s.clearOut).ct = s.ct ∧ (s.clearOut).busy = s.busy ∧
    (s.clearOut).pending = s.pending ∧ (s.clearOut).done = s.done ∧ (s.clearOut).err = s.err ∧
    (s.clearOut).busyViol = s.busyViol ∧ (s.clearOut).lastOp = s.lastOp ∧
    (s.clearOut).errCode = s.errCode ∧ (s.clearOut).errInfo = s.errInfo ∧
    (s.clearOut).errSym = s.errSym ∧ (s.clearOut).irqEn = s.irqEn ∧
    (s.clearOut).inLen = s.inLen ∧ (s.clearOut).ibufAddr = s.ibufAddr ∧
    (s.clearOut).obufAddr = s.obufAddr ∧ (s.clearOut).freqSel = s.freqSel ∧
    (s.clearOut).ctSel = s.ctSel ∧ (s.clearOut).params = s.params ∧ (s.clearOut).resp = s.resp ∧
    (s.clearOut).events = s.events ∧ (s.clearOut).draws = s.draws :=
  ⟨rfl, rfl, rfl, rfl, rfl, rfl, rfl, rfl, rfl, rfl, rfl, rfl, rfl,
    rfl, rfl, rfl, rfl, rfl, rfl, rfl, rfl, rfl, rfl, rfl, rfl, rfl, rfl⟩

@[simp] theorem acknowledge_err (s : State) : (s.acknowledge).err = false := rfl

@[simp] theorem acknowledge_errCode (s : State) : (s.acknowledge).errCode = 0 := rfl

@[simp] theorem acknowledge_errInfo (s : State) : (s.acknowledge).errInfo = 0 := rfl

@[simp] theorem acknowledge_errSym (s : State) : (s.acknowledge).errSym = 0 := rfl

/-- The fields `acknowledge` leaves. -/
@[simp] theorem acknowledge_same (s : State) :
    (s.acknowledge).ibuf = s.ibuf ∧ (s.acknowledge).obuf = s.obuf ∧
    (s.acknowledge).freq = s.freq ∧ (s.acknowledge).node = s.node ∧
    (s.acknowledge).root = s.root ∧ (s.acknowledge).nnodes = s.nnodes ∧
    (s.acknowledge).treeValid = s.treeValid ∧ (s.acknowledge).ct = s.ct ∧
    (s.acknowledge).outValid = s.outValid ∧ (s.acknowledge).outBytes = s.outBytes ∧
    (s.acknowledge).outBits = s.outBits ∧ (s.acknowledge).busy = s.busy ∧
    (s.acknowledge).pending = s.pending ∧ (s.acknowledge).done = s.done ∧
    (s.acknowledge).busyViol = s.busyViol ∧ (s.acknowledge).lastOp = s.lastOp ∧
    (s.acknowledge).irqEn = s.irqEn ∧ (s.acknowledge).inLen = s.inLen ∧
    (s.acknowledge).ibufAddr = s.ibufAddr ∧ (s.acknowledge).obufAddr = s.obufAddr ∧
    (s.acknowledge).freqSel = s.freqSel ∧ (s.acknowledge).ctSel = s.ctSel ∧
    (s.acknowledge).params = s.params ∧ (s.acknowledge).resp = s.resp ∧
    (s.acknowledge).events = s.events ∧ (s.acknowledge).draws = s.draws :=
  ⟨rfl, rfl, rfl, rfl, rfl, rfl, rfl, rfl, rfl, rfl, rfl, rfl, rfl,
    rfl, rfl, rfl, rfl, rfl, rfl, rfl, rfl, rfl, rfl, rfl, rfl, rfl⟩

@[simp] theorem recordError_err (s : State) (e : CmdError) : (s.recordError e).err = true := rfl

@[simp] theorem recordError_errCode (s : State) (e : CmdError) : (s.recordError e).errCode = e.name.code := rfl

@[simp] theorem recordError_errInfo (s : State) (e : CmdError) : (s.recordError e).errInfo = e.info := rfl

@[simp] theorem recordError_errSym (s : State) (e : CmdError) : (s.recordError e).errSym = e.sym := rfl

/-- The fields `recordError` leaves. -/
@[simp] theorem recordError_same (s : State) (e : CmdError) :
    (s.recordError e).ibuf = s.ibuf ∧ (s.recordError e).obuf = s.obuf ∧
    (s.recordError e).freq = s.freq ∧ (s.recordError e).node = s.node ∧
    (s.recordError e).root = s.root ∧ (s.recordError e).nnodes = s.nnodes ∧
    (s.recordError e).treeValid = s.treeValid ∧ (s.recordError e).ct = s.ct ∧
    (s.recordError e).outValid = s.outValid ∧ (s.recordError e).outBytes = s.outBytes ∧
    (s.recordError e).outBits = s.outBits ∧ (s.recordError e).busy = s.busy ∧
    (s.recordError e).pending = s.pending ∧ (s.recordError e).done = s.done ∧
    (s.recordError e).busyViol = s.busyViol ∧ (s.recordError e).lastOp = s.lastOp ∧
    (s.recordError e).irqEn = s.irqEn ∧ (s.recordError e).inLen = s.inLen ∧
    (s.recordError e).ibufAddr = s.ibufAddr ∧ (s.recordError e).obufAddr = s.obufAddr ∧
    (s.recordError e).freqSel = s.freqSel ∧ (s.recordError e).ctSel = s.ctSel ∧
    (s.recordError e).params = s.params ∧ (s.recordError e).resp = s.resp ∧
    (s.recordError e).events = s.events ∧ (s.recordError e).draws = s.draws :=
  ⟨rfl, rfl, rfl, rfl, rfl, rfl, rfl, rfl, rfl, rfl, rfl, rfl, rfl,
    rfl, rfl, rfl, rfl, rfl, rfl, rfl, rfl, rfl, rfl, rfl, rfl, rfl⟩

@[simp] theorem stepIbufAddr_ibufAddr (s : State) : (s.stepIbufAddr).ibufAddr = nextAddr s.params.ibufAw s.ibufAddr := rfl

/-- The fields `stepIbufAddr` leaves. -/
@[simp] theorem stepIbufAddr_same (s : State) :
    (s.stepIbufAddr).ibuf = s.ibuf ∧ (s.stepIbufAddr).obuf = s.obuf ∧
    (s.stepIbufAddr).freq = s.freq ∧ (s.stepIbufAddr).node = s.node ∧
    (s.stepIbufAddr).root = s.root ∧ (s.stepIbufAddr).nnodes = s.nnodes ∧
    (s.stepIbufAddr).treeValid = s.treeValid ∧ (s.stepIbufAddr).ct = s.ct ∧
    (s.stepIbufAddr).outValid = s.outValid ∧ (s.stepIbufAddr).outBytes = s.outBytes ∧
    (s.stepIbufAddr).outBits = s.outBits ∧ (s.stepIbufAddr).busy = s.busy ∧
    (s.stepIbufAddr).pending = s.pending ∧ (s.stepIbufAddr).done = s.done ∧
    (s.stepIbufAddr).err = s.err ∧ (s.stepIbufAddr).busyViol = s.busyViol ∧
    (s.stepIbufAddr).lastOp = s.lastOp ∧ (s.stepIbufAddr).errCode = s.errCode ∧
    (s.stepIbufAddr).errInfo = s.errInfo ∧ (s.stepIbufAddr).errSym = s.errSym ∧
    (s.stepIbufAddr).irqEn = s.irqEn ∧ (s.stepIbufAddr).inLen = s.inLen ∧
    (s.stepIbufAddr).obufAddr = s.obufAddr ∧ (s.stepIbufAddr).freqSel = s.freqSel ∧
    (s.stepIbufAddr).ctSel = s.ctSel ∧ (s.stepIbufAddr).params = s.params ∧
    (s.stepIbufAddr).resp = s.resp ∧ (s.stepIbufAddr).events = s.events ∧
    (s.stepIbufAddr).draws = s.draws :=
  ⟨rfl, rfl, rfl, rfl, rfl, rfl, rfl, rfl, rfl, rfl, rfl, rfl, rfl, rfl,
    rfl, rfl, rfl, rfl, rfl, rfl, rfl, rfl, rfl, rfl, rfl, rfl, rfl, rfl, rfl⟩

@[simp] theorem stepObufAddr_obufAddr (s : State) : (s.stepObufAddr).obufAddr = nextAddr s.params.obufAw s.obufAddr := rfl

/-- The fields `stepObufAddr` leaves. -/
@[simp] theorem stepObufAddr_same (s : State) :
    (s.stepObufAddr).ibuf = s.ibuf ∧ (s.stepObufAddr).obuf = s.obuf ∧
    (s.stepObufAddr).freq = s.freq ∧ (s.stepObufAddr).node = s.node ∧
    (s.stepObufAddr).root = s.root ∧ (s.stepObufAddr).nnodes = s.nnodes ∧
    (s.stepObufAddr).treeValid = s.treeValid ∧ (s.stepObufAddr).ct = s.ct ∧
    (s.stepObufAddr).outValid = s.outValid ∧ (s.stepObufAddr).outBytes = s.outBytes ∧
    (s.stepObufAddr).outBits = s.outBits ∧ (s.stepObufAddr).busy = s.busy ∧
    (s.stepObufAddr).pending = s.pending ∧ (s.stepObufAddr).done = s.done ∧
    (s.stepObufAddr).err = s.err ∧ (s.stepObufAddr).busyViol = s.busyViol ∧
    (s.stepObufAddr).lastOp = s.lastOp ∧ (s.stepObufAddr).errCode = s.errCode ∧
    (s.stepObufAddr).errInfo = s.errInfo ∧ (s.stepObufAddr).errSym = s.errSym ∧
    (s.stepObufAddr).irqEn = s.irqEn ∧ (s.stepObufAddr).inLen = s.inLen ∧
    (s.stepObufAddr).ibufAddr = s.ibufAddr ∧ (s.stepObufAddr).freqSel = s.freqSel ∧
    (s.stepObufAddr).ctSel = s.ctSel ∧ (s.stepObufAddr).params = s.params ∧
    (s.stepObufAddr).resp = s.resp ∧ (s.stepObufAddr).events = s.events ∧
    (s.stepObufAddr).draws = s.draws :=
  ⟨rfl, rfl, rfl, rfl, rfl, rfl, rfl, rfl, rfl, rfl, rfl, rfl, rfl, rfl,
    rfl, rfl, rfl, rfl, rfl, rfl, rfl, rfl, rfl, rfl, rfl, rfl, rfl, rfl, rfl⟩

@[simp] theorem loseTree_treeValid (s : State) : (s.loseTree).treeValid = false := rfl

@[simp] theorem loseTree_node (s : State) : (s.loseTree).node = ⟨s.draws, []⟩ := rfl

@[simp] theorem loseTree_root (s : State) : (s.loseTree).root = Config.freeBits 9 (s.draws + 1) 0 := rfl

@[simp] theorem loseTree_nnodes (s : State) : (s.loseTree).nnodes = (Config.freeBits 9 (s.draws + 2) 0).setWidth 10 := rfl

@[simp] theorem loseTree_draws (s : State) : (s.loseTree).draws = s.draws + 3 := rfl

/-- The fields `loseTree` leaves. -/
@[simp] theorem loseTree_same (s : State) :
    (s.loseTree).ibuf = s.ibuf ∧ (s.loseTree).obuf = s.obuf ∧ (s.loseTree).freq = s.freq ∧
    (s.loseTree).ct = s.ct ∧ (s.loseTree).outValid = s.outValid ∧
    (s.loseTree).outBytes = s.outBytes ∧ (s.loseTree).outBits = s.outBits ∧
    (s.loseTree).busy = s.busy ∧ (s.loseTree).pending = s.pending ∧ (s.loseTree).done = s.done ∧
    (s.loseTree).err = s.err ∧ (s.loseTree).busyViol = s.busyViol ∧
    (s.loseTree).lastOp = s.lastOp ∧ (s.loseTree).errCode = s.errCode ∧
    (s.loseTree).errInfo = s.errInfo ∧ (s.loseTree).errSym = s.errSym ∧
    (s.loseTree).irqEn = s.irqEn ∧ (s.loseTree).inLen = s.inLen ∧
    (s.loseTree).ibufAddr = s.ibufAddr ∧ (s.loseTree).obufAddr = s.obufAddr ∧
    (s.loseTree).freqSel = s.freqSel ∧ (s.loseTree).ctSel = s.ctSel ∧
    (s.loseTree).params = s.params ∧ (s.loseTree).resp = s.resp ∧
    (s.loseTree).events = s.events :=
  ⟨rfl, rfl, rfl, rfl, rfl, rfl, rfl, rfl, rfl, rfl, rfl, rfl,
    rfl, rfl, rfl, rfl, rfl, rfl, rfl, rfl, rfl, rfl, rfl, rfl, rfl⟩

@[simp] theorem losePacked_outValid (s : State) : (s.losePacked).outValid = false := rfl

@[simp] theorem losePacked_outBytes (s : State) : (s.losePacked).outBytes = 0 := rfl

@[simp] theorem losePacked_outBits (s : State) : (s.losePacked).outBits = 0 := rfl

@[simp] theorem losePacked_obuf (s : State) : (s.losePacked).obuf = ⟨s.draws, []⟩ := rfl

@[simp] theorem losePacked_draws (s : State) : (s.losePacked).draws = s.draws + 1 := rfl

/-- The fields `losePacked` leaves. -/
@[simp] theorem losePacked_same (s : State) :
    (s.losePacked).ibuf = s.ibuf ∧ (s.losePacked).freq = s.freq ∧ (s.losePacked).node = s.node ∧
    (s.losePacked).root = s.root ∧ (s.losePacked).nnodes = s.nnodes ∧
    (s.losePacked).treeValid = s.treeValid ∧ (s.losePacked).ct = s.ct ∧
    (s.losePacked).busy = s.busy ∧ (s.losePacked).pending = s.pending ∧
    (s.losePacked).done = s.done ∧ (s.losePacked).err = s.err ∧
    (s.losePacked).busyViol = s.busyViol ∧ (s.losePacked).lastOp = s.lastOp ∧
    (s.losePacked).errCode = s.errCode ∧ (s.losePacked).errInfo = s.errInfo ∧
    (s.losePacked).errSym = s.errSym ∧ (s.losePacked).irqEn = s.irqEn ∧
    (s.losePacked).inLen = s.inLen ∧ (s.losePacked).ibufAddr = s.ibufAddr ∧
    (s.losePacked).obufAddr = s.obufAddr ∧ (s.losePacked).freqSel = s.freqSel ∧
    (s.losePacked).ctSel = s.ctSel ∧ (s.losePacked).params = s.params ∧
    (s.losePacked).resp = s.resp ∧ (s.losePacked).events = s.events :=
  ⟨rfl, rfl, rfl, rfl, rfl, rfl, rfl, rfl, rfl, rfl, rfl, rfl,
    rfl, rfl, rfl, rfl, rfl, rfl, rfl, rfl, rfl, rfl, rfl, rfl, rfl⟩

@[simp] theorem emptyResult_ct (s : State) : (s.emptyResult).ct = emptyCodes := rfl

@[simp] theorem emptyResult_outBytes (s : State) : (s.emptyResult).outBytes = 0 := rfl

@[simp] theorem emptyResult_outBits (s : State) : (s.emptyResult).outBits = 0 := rfl

@[simp] theorem emptyResult_outValid (s : State) : (s.emptyResult).outValid = true := rfl

/-- The fields `emptyResult` leaves. -/
@[simp] theorem emptyResult_same (s : State) :
    (s.emptyResult).ibuf = s.ibuf ∧ (s.emptyResult).obuf = s.obuf ∧
    (s.emptyResult).freq = s.freq ∧ (s.emptyResult).node = s.node ∧
    (s.emptyResult).root = s.root ∧ (s.emptyResult).nnodes = s.nnodes ∧
    (s.emptyResult).treeValid = s.treeValid ∧ (s.emptyResult).busy = s.busy ∧
    (s.emptyResult).pending = s.pending ∧ (s.emptyResult).done = s.done ∧
    (s.emptyResult).err = s.err ∧ (s.emptyResult).busyViol = s.busyViol ∧
    (s.emptyResult).lastOp = s.lastOp ∧ (s.emptyResult).errCode = s.errCode ∧
    (s.emptyResult).errInfo = s.errInfo ∧ (s.emptyResult).errSym = s.errSym ∧
    (s.emptyResult).irqEn = s.irqEn ∧ (s.emptyResult).inLen = s.inLen ∧
    (s.emptyResult).ibufAddr = s.ibufAddr ∧ (s.emptyResult).obufAddr = s.obufAddr ∧
    (s.emptyResult).freqSel = s.freqSel ∧ (s.emptyResult).ctSel = s.ctSel ∧
    (s.emptyResult).params = s.params ∧ (s.emptyResult).resp = s.resp ∧
    (s.emptyResult).events = s.events ∧ (s.emptyResult).draws = s.draws :=
  ⟨rfl, rfl, rfl, rfl, rfl, rfl, rfl, rfl, rfl, rfl, rfl, rfl, rfl,
    rfl, rfl, rfl, rfl, rfl, rfl, rfl, rfl, rfl, rfl, rfl, rfl, rfl⟩

@[simp] theorem w1c_done (s : State) (v : Word) : (s.w1c v).done = if v[1] then false else s.done := by
  unfold w1c; cases v[1] <;> cases v[2] <;> cases v[3] <;> rfl

@[simp] theorem w1c_err (s : State) (v : Word) : (s.w1c v).err = if v[2] then false else s.err := by
  unfold w1c; cases v[1] <;> cases v[2] <;> cases v[3] <;> rfl

@[simp] theorem w1c_errCode (s : State) (v : Word) : (s.w1c v).errCode = if v[2] then 0 else s.errCode := by
  unfold w1c; cases v[1] <;> cases v[2] <;> cases v[3] <;> rfl

@[simp] theorem w1c_errInfo (s : State) (v : Word) : (s.w1c v).errInfo = if v[2] then 0 else s.errInfo := by
  unfold w1c; cases v[1] <;> cases v[2] <;> cases v[3] <;> rfl

@[simp] theorem w1c_errSym (s : State) (v : Word) : (s.w1c v).errSym = if v[2] then 0 else s.errSym := by
  unfold w1c; cases v[1] <;> cases v[2] <;> cases v[3] <;> rfl

@[simp] theorem w1c_busyViol (s : State) (v : Word) : (s.w1c v).busyViol = if v[3] then false else s.busyViol := by
  unfold w1c; cases v[1] <;> cases v[2] <;> cases v[3] <;> rfl

/-- The fields a write to STATUS leaves (40_host_access.md R141). -/
@[simp] theorem w1c_same (s : State) (v : Word) :
    (s.w1c v).ibuf = s.ibuf ∧ (s.w1c v).obuf = s.obuf ∧ (s.w1c v).freq = s.freq ∧
    (s.w1c v).node = s.node ∧ (s.w1c v).root = s.root ∧ (s.w1c v).nnodes = s.nnodes ∧
    (s.w1c v).treeValid = s.treeValid ∧ (s.w1c v).ct = s.ct ∧ (s.w1c v).outValid = s.outValid ∧
    (s.w1c v).outBytes = s.outBytes ∧ (s.w1c v).outBits = s.outBits ∧ (s.w1c v).busy = s.busy ∧
    (s.w1c v).pending = s.pending ∧ (s.w1c v).lastOp = s.lastOp ∧ (s.w1c v).irqEn = s.irqEn ∧
    (s.w1c v).inLen = s.inLen ∧ (s.w1c v).ibufAddr = s.ibufAddr ∧
    (s.w1c v).obufAddr = s.obufAddr ∧ (s.w1c v).freqSel = s.freqSel ∧ (s.w1c v).ctSel = s.ctSel ∧
    (s.w1c v).params = s.params ∧ (s.w1c v).resp = s.resp ∧ (s.w1c v).events = s.events ∧
    (s.w1c v).draws = s.draws := by
  unfold w1c; cases v[1] <;> cases v[2] <;> cases v[3] <;> simp

end Sys2Proof.Machine.State
end

