-- ==== Sys2Proof/Laws/Bus.lean ====
section
/-! SUPPORT. What the shared operations of a transaction and of a completion can do. -/

set_option Elab.async false

namespace Sys2Proof.Machine

/-- An exact read answers its word and changes only the response. -/
@[simp] theorem readExact_eq (s : State) (v : Word) :
    readExact s v = .next { s with resp := .read v false } := rfl

/-- A read of a `DRAW_WHILE_BUSY` register while BUSY = 0. -/
theorem readUnlessBusy_idle {s : State} (h : s.busy = false) (v : Word) (after : State) :
    readUnlessBusy s v after = .next { after with resp := .read v false } := by
  simp [readUnlessBusy, h, State.respond]

/-- A read of a `DRAW_WHILE_BUSY` register while BUSY = 1 (40_host_access.md R134). -/
theorem readUnlessBusy_busy {s : State} (h : s.busy = true) (v : Word) (after : State) :
    readUnlessBusy s v after =
      .next { s with
        resp := .read (Config.freeBits 32 s.draws 0) false
        draws := s.draws + 1 } := by
  simp [readUnlessBusy, h, State.respond, State.drew]

/-- A write that is taken answers no error. -/
@[simp] theorem writeTaken_eq (after : State) :
    writeTaken after = .next { after with resp := .write false } := rfl

/-- A write to a `BUSY_SENSITIVE` register while BUSY = 0. -/
theorem writeUnlessBusy_idle {s : State} (h : s.busy = false) (after : State) :
    writeUnlessBusy s after = .next { after with resp := .write false } := by
  simp [writeUnlessBusy, h]

/-- A write to a `BUSY_SENSITIVE` register while BUSY = 1 (40_host_access.md R133). -/
theorem writeUnlessBusy_busy {s : State} (h : s.busy = true) (after : State) :
    writeUnlessBusy s after = .next { s with busyViol := true, resp := .write false } := by
  simp [writeUnlessBusy, h, State.violate]

/-- A completion without an error (41_command_control.md R182). -/
@[simp] theorem complete_ok (s : State) :
    complete (s, .ok) = { s with busy := false, done := true } := rfl

/-- A completion with an error (60_exceptions.md R323). -/
@[simp] theorem complete_err (s : State) (e : CmdError) :
    complete (s, .err e) =
      { s with
        busy := false
        done := true
        err := true
        errCode := e.name.code
        errInfo := e.info
        errSym := e.sym } := rfl

/-- Every completion leaves the engine idle, with DONE = 1 (41_command_control.md R182). -/
theorem complete_idle (r : Stage) : (complete r).busy = false ∧ (complete r).done = true := by
  obtain ⟨s, r⟩ := r
  cases r <;> exact ⟨rfl, rfl⟩

/-- A completion with an error records it, and one without leaves the record of its stage. -/
theorem complete_record (r : Stage) :
    (r.2 = .ok ∧ (complete r).err = r.1.err ∧ (complete r).errCode = r.1.errCode ∧
        (complete r).errInfo = r.1.errInfo ∧ (complete r).errSym = r.1.errSym) ∨
      ∃ e, r.2 = .err e ∧ (complete r).err = true ∧ (complete r).errCode = e.name.code ∧
        (complete r).errInfo = e.info ∧ (complete r).errSym = e.sym := by
  obtain ⟨s, r⟩ := r
  cases r with
  | ok => exact .inl ⟨rfl, rfl, rfl, rfl, rfl⟩
  | err e => exact .inr ⟨e, rfl, rfl, rfl, rfl, rfl⟩

/-- No error has the code 0, and none a reserved one (60_exceptions.md R320). -/
theorem ErrName.code_range (n : ErrName) : 1 ≤ n.code.toNat ∧ n.code.toNat ≤ 7 := by
  cases n <;> decide

end Sys2Proof.Machine
end

