-- ==== Sys2Proof/Laws/Memory.lean ====
section
/-! SUPPORT. Memories and tables: a read after a write, and the canonical form. -/

set_option Elab.async false

namespace Sys2Proof.Machine

theorem lookupCell_insertCell {α : Type} (a b : Nat) (v : α) (cs : List (Nat × α)) :
    lookupCell b (insertCell a v cs) = if a = b then some v else lookupCell b cs := by
  induction cs with
  | nil => simp [insertCell, lookupCell]
  | cons c cs ih =>
    unfold insertCell
    split
    · simp [lookupCell]
    · split
      · rename_i _ h
        subst h
        by_cases hb : c.1 = b <;> simp [lookupCell, hb]
      · rename_i _ h
        by_cases hb : c.1 = b
        · subst hb; simp [lookupCell, h]
        · simp [lookupCell, hb, ih]

/-- A written address holds the value, and every other address holds what it held. -/
theorem Memory.lookup_write {α : Type} (m : Memory α) (a b : Nat) (v : α) :
    (m.write a v).lookup b = if a = b then some v else m.lookup b :=
  lookupCell_insertCell a b v m.cells

@[simp] theorem Memory.write_draw {α : Type} (m : Memory α) (a : Nat) (v : α) :
    (m.write a v).draw = m.draw := rfl

/-- A byte read after a byte written. -/
theorem Memory.readByte_write (m : Memory Byte) (a b : Nat) (v : Byte) :
    (m.write a v).readByte b = if a = b then v else m.readByte b := by
  unfold readByte
  rw [lookup_write]
  split <;> rfl

/-- A NODE entry read after one written. -/
theorem Memory.readNode_write (m : Memory Node) (a b : Nat) (v : Node) :
    (m.write a v).readNode b = if a = b then v else m.readNode b := by
  unfold readNode
  rw [lookup_write]
  split <;> rfl

theorem mem_insertCell {α : Type} {a : Nat} {v : α} {c : Nat × α} {cs : List (Nat × α)}
    (h : c ∈ insertCell a v cs) : c = (a, v) ∨ c ∈ cs := by
  induction cs with
  | nil => simpa [insertCell] using h
  | cons d cs ih =>
    unfold insertCell at h
    split at h
    · simpa using h
    · split at h
      · rcases List.mem_cons.mp h with h | h
        · exact .inl h
        · exact .inr (List.mem_cons_of_mem _ h)
      · rcases List.mem_cons.mp h with h | h
        · exact .inr (h ▸ List.mem_cons_self)
        · exact (ih h).imp id (List.mem_cons_of_mem _)

theorem insertCell_rises {α : Type} (a : Nat) (v : α) {cs : List (Nat × α)}
    (h : cs.Pairwise (fun c d => c.1 < d.1)) :
    (insertCell a v cs).Pairwise (fun c d => c.1 < d.1) := by
  induction cs with
  | nil => simp [insertCell]
  | cons c cs ih =>
    obtain ⟨hc, hcs⟩ := List.pairwise_cons.mp h
    unfold insertCell
    split
    · rename_i ha
      refine List.pairwise_cons.mpr ⟨fun d hd => ?_, h⟩
      rcases List.mem_cons.mp hd with rfl | hd
      · exact ha
      · exact ha.trans (hc d hd)
    · split
      · rename_i ha
        exact List.pairwise_cons.mpr ⟨fun d hd => by simpa [ha] using hc d hd, hcs⟩
      · refine List.pairwise_cons.mpr ⟨fun d hd => ?_, ih hcs⟩
        rcases mem_insertCell hd with rfl | hd
        · simp only; omega
        · exact hc d hd

/-- Writing in range keeps the canonical form. -/
theorem Memory.write_wf {α : Type} [DecidableEq α] {size : Nat} {m : Memory α} (h : m.wf size)
    {a : Nat} (ha : a < size) (v : α) : (m.write a v).wf size := by
  refine ⟨insertCell_rises a v h.1, fun c hc => ?_⟩
  rcases mem_insertCell hc with rfl | hc
  · exact ⟨ha, by simp [Memory.unlisted]⟩
  · exact h.2 c hc

/-- Freshly drawn contents have the canonical form. -/
theorem Memory.drawn_wf {α : Type} [DecidableEq α] (size d : Nat) :
    (⟨d, []⟩ : Memory α).wf size := by
  simp [Memory.wf]

/-- Every memory of the reset state has the canonical form. -/
theorem reset_memories_wf :
    State.reset.ibuf.wf State.reset.params.ibufBytes ∧
      State.reset.obuf.wf State.reset.params.obufBytes ∧ State.reset.node.wf 511 :=
  ⟨Memory.drawn_wf _ _, Memory.drawn_wf _ _, Memory.drawn_wf _ _⟩

/-- A table entry read after one written. -/
theorem entryAt_setEntry {α : Type} (t : Vector α 256) (s c : Byte) (v : α) :
    entryAt (setEntry t s v) c = if s = c then v else entryAt t c := by
  simp [entryAt, setEntry, Vector.getElem_set, BitVec.toNat_inj]

@[simp] theorem entryAt_zeroFreq (s : Byte) : entryAt zeroFreq s = 0 := by
  simp [entryAt, zeroFreq]

@[simp] theorem entryAt_emptyCodes (s : Byte) : entryAt emptyCodes s = CodeEntry.invalid := by
  simp [entryAt, emptyCodes]

theorem mem_allSymbols (s : Byte) : s ∈ allSymbols :=
  List.mem_map.mpr ⟨s.toNat, List.mem_range.mpr s.isLt, BitVec.ofNat_toNat 8 s |>.trans (by simp)⟩

/-- A symbol is in the alphabet exactly when its count is not 0 (42_frequency_counter.md R205). -/
theorem mem_presentSymbols (freq : Vector Word 256) (s : Byte) :
    s ∈ presentSymbols freq ↔ entryAt freq s ≠ 0 := by
  simp [presentSymbols, mem_allSymbols]

@[simp] theorem CodeEntry.bits_length (e : CodeEntry) : e.bits.length = e.len.toNat := by
  simp [CodeEntry.bits]

end Sys2Proof.Machine
end

