-- ==== Sys2Proof/Laws/PerInstr.lean ====
section
/-! SUPPORT. The encoding of each instruction has a format the engine accepts: one lemma per constructor. -/

set_option Elab.async false

namespace Sys2Proof.Laws.AcceptedFormat

/-- A packet that no size or alignment check refuses (20_memory.md R78), and whose read carries no data. -/
def accepts : Packet → Bool
  | .bus t => t.size == .four && t.offset.extractLsb' 0 2 == 0#2 && (t.write || t.wdata == 0)
  | .cmd w => w.extractLsb' 8 24 == 0#24

/-- A well-formed instruction's packet has an accepted format. -/
def Statement (i : Instr) : Prop := i.wellFormed = true → accepts (encode i) = true

theorem nop : Statement .nop := fun _ => rfl

theorem clrf : Statement .clrf := fun _ => rfl

theorem count : Statement .count := fun _ => rfl

theorem build : Statement .build := fun _ => rfl

theorem gen : Statement .gen := fun _ => rfl

theorem pack : Statement .pack := fun _ => rfl

theorem encode : Statement .encode := fun _ => rfl

theorem srst : Statement .srst := fun _ => rfl

theorem illegal08 (low : BitVec 3) : Statement (.illegal08 low) := by
  intro _; revert low; decide +kernel

theorem illegal10 (low : BitVec 4) : Statement (.illegal10 low) := by
  intro _; revert low; decide +kernel

theorem illegal20 (low : BitVec 5) : Statement (.illegal20 low) := by
  intro _; revert low; decide +kernel

theorem illegal40 (low : BitVec 6) : Statement (.illegal40 low) := by
  intro _; revert low; decide +kernel

theorem illegal80 (low : BitVec 7) : Statement (.illegal80 low) := by
  intro _; revert low; decide +kernel

theorem rdId : Statement .rdId := fun _ => rfl

theorem rdVersion : Statement .rdVersion := fun _ => rfl

theorem rdCapIbuf : Statement .rdCapIbuf := fun _ => rfl

theorem rdCapObuf : Statement .rdCapObuf := fun _ => rfl

theorem rdCmd : Statement .rdCmd := fun _ => rfl

theorem rdStatus : Statement .rdStatus := fun _ => rfl

theorem rdIrqEn : Statement .rdIrqEn := fun _ => rfl

theorem rdErrCode : Statement .rdErrCode := fun _ => rfl

theorem rdErrInfo : Statement .rdErrInfo := fun _ => rfl

theorem rdErrSym : Statement .rdErrSym := fun _ => rfl

theorem rdInLen : Statement .rdInLen := fun _ => rfl

theorem rdIbufAddr : Statement .rdIbufAddr := fun _ => rfl

theorem rdIbufData : Statement .rdIbufData := fun _ => rfl

theorem rdObufAddr : Statement .rdObufAddr := fun _ => rfl

theorem rdObufData : Statement .rdObufData := fun _ => rfl

theorem rdOutBytes : Statement .rdOutBytes := fun _ => rfl

theorem rdOutBits : Statement .rdOutBits := fun _ => rfl

theorem rdFreqSel : Statement .rdFreqSel := fun _ => rfl

theorem rdFreqData : Statement .rdFreqData := fun _ => rfl

theorem rdNsym : Statement .rdNsym := fun _ => rfl

theorem rdCtSel : Statement .rdCtSel := fun _ => rfl

theorem rdCtLen : Statement .rdCtLen := fun _ => rfl

theorem rdCtMaxlen : Statement .rdCtMaxlen := fun _ => rfl

theorem rdCtWord0 : Statement .rdCtWord0 := fun _ => rfl

theorem rdCtWord1 : Statement .rdCtWord1 := fun _ => rfl

theorem rdCtWord2 : Statement .rdCtWord2 := fun _ => rfl

theorem rdCtWord3 : Statement .rdCtWord3 := fun _ => rfl

theorem rdCtWord4 : Statement .rdCtWord4 := fun _ => rfl

theorem rdCtWord5 : Statement .rdCtWord5 := fun _ => rfl

theorem rdCtWord6 : Statement .rdCtWord6 := fun _ => rfl

theorem rdCtWord7 : Statement .rdCtWord7 := fun _ => rfl

theorem wrId (wdata : Word) : Statement (.wrId wdata) := by simp [Statement, accepts, Sys2Proof.encode, writeOf]

theorem wrVersion (wdata : Word) : Statement (.wrVersion wdata) := by simp [Statement, accepts, Sys2Proof.encode, writeOf]

theorem wrCapIbuf (wdata : Word) : Statement (.wrCapIbuf wdata) := by simp [Statement, accepts, Sys2Proof.encode, writeOf]

theorem wrCapObuf (wdata : Word) : Statement (.wrCapObuf wdata) := by simp [Statement, accepts, Sys2Proof.encode, writeOf]

theorem wrCmd (wdata : Word) : Statement (.wrCmd wdata) := by simp [Statement, accepts, Sys2Proof.encode, writeOf]

theorem wrStatus (wdata : Word) : Statement (.wrStatus wdata) := by simp [Statement, accepts, Sys2Proof.encode, writeOf]

theorem wrIrqEn (wdata : Word) : Statement (.wrIrqEn wdata) := by simp [Statement, accepts, Sys2Proof.encode, writeOf]

theorem wrErrCode (wdata : Word) : Statement (.wrErrCode wdata) := by simp [Statement, accepts, Sys2Proof.encode, writeOf]

theorem wrErrInfo (wdata : Word) : Statement (.wrErrInfo wdata) := by simp [Statement, accepts, Sys2Proof.encode, writeOf]

theorem wrErrSym (wdata : Word) : Statement (.wrErrSym wdata) := by simp [Statement, accepts, Sys2Proof.encode, writeOf]

theorem wrInLen (wdata : Word) : Statement (.wrInLen wdata) := by simp [Statement, accepts, Sys2Proof.encode, writeOf]

theorem wrIbufAddr (wdata : Word) : Statement (.wrIbufAddr wdata) := by simp [Statement, accepts, Sys2Proof.encode, writeOf]

theorem wrIbufData (wdata : Word) : Statement (.wrIbufData wdata) := by simp [Statement, accepts, Sys2Proof.encode, writeOf]

theorem wrObufAddr (wdata : Word) : Statement (.wrObufAddr wdata) := by simp [Statement, accepts, Sys2Proof.encode, writeOf]

theorem wrObufData (wdata : Word) : Statement (.wrObufData wdata) := by simp [Statement, accepts, Sys2Proof.encode, writeOf]

theorem wrOutBytes (wdata : Word) : Statement (.wrOutBytes wdata) := by simp [Statement, accepts, Sys2Proof.encode, writeOf]

theorem wrOutBits (wdata : Word) : Statement (.wrOutBits wdata) := by simp [Statement, accepts, Sys2Proof.encode, writeOf]

theorem wrFreqSel (wdata : Word) : Statement (.wrFreqSel wdata) := by simp [Statement, accepts, Sys2Proof.encode, writeOf]

theorem wrFreqData (wdata : Word) : Statement (.wrFreqData wdata) := by simp [Statement, accepts, Sys2Proof.encode, writeOf]

theorem wrNsym (wdata : Word) : Statement (.wrNsym wdata) := by simp [Statement, accepts, Sys2Proof.encode, writeOf]

theorem wrCtSel (wdata : Word) : Statement (.wrCtSel wdata) := by simp [Statement, accepts, Sys2Proof.encode, writeOf]

theorem wrCtLen (wdata : Word) : Statement (.wrCtLen wdata) := by simp [Statement, accepts, Sys2Proof.encode, writeOf]

theorem wrCtMaxlen (wdata : Word) : Statement (.wrCtMaxlen wdata) := by simp [Statement, accepts, Sys2Proof.encode, writeOf]

theorem wrCtWord0 (wdata : Word) : Statement (.wrCtWord0 wdata) := by simp [Statement, accepts, Sys2Proof.encode, writeOf]

theorem wrCtWord1 (wdata : Word) : Statement (.wrCtWord1 wdata) := by simp [Statement, accepts, Sys2Proof.encode, writeOf]

theorem wrCtWord2 (wdata : Word) : Statement (.wrCtWord2 wdata) := by simp [Statement, accepts, Sys2Proof.encode, writeOf]

theorem wrCtWord3 (wdata : Word) : Statement (.wrCtWord3 wdata) := by simp [Statement, accepts, Sys2Proof.encode, writeOf]

theorem wrCtWord4 (wdata : Word) : Statement (.wrCtWord4 wdata) := by simp [Statement, accepts, Sys2Proof.encode, writeOf]

theorem wrCtWord5 (wdata : Word) : Statement (.wrCtWord5 wdata) := by simp [Statement, accepts, Sys2Proof.encode, writeOf]

theorem wrCtWord6 (wdata : Word) : Statement (.wrCtWord6 wdata) := by simp [Statement, accepts, Sys2Proof.encode, writeOf]

theorem wrCtWord7 (wdata : Word) : Statement (.wrCtWord7 wdata) := by simp [Statement, accepts, Sys2Proof.encode, writeOf]

theorem rdRsvd5c : Statement .rdRsvd5c := fun _ => rfl

theorem rdRsvd80 (low : BitVec 7) : Statement (.rdRsvd80 low) := by
  have key : ∀ l : BitVec 7, alignedLow l = true → (1#1 ++ l).extractLsb' 0 2 = 0#2 := by decide
  intro h; simp [accepts, Sys2Proof.encode, readOf, key low h]

theorem wrRsvd5c (wdata : Word) : Statement (.wrRsvd5c wdata) := by simp [Statement, accepts, Sys2Proof.encode, writeOf]

theorem wrRsvd80 (low : BitVec 7) (wdata : Word) : Statement (.wrRsvd80 low wdata) := by
  have key : ∀ l : BitVec 7, alignedLow l = true → (1#1 ++ l).extractLsb' 0 2 = 0#2 := by decide
  intro h; simp [accepts, Sys2Proof.encode, writeOf, key low h]

end Sys2Proof.Laws.AcceptedFormat
end

