-- ==== Sys2Proof/Laws/Stages.lean ====
section
/-! SUPPORT. What each command's `Execute` can do: one inversion lemma per stage. -/

set_option Elab.async false

namespace Sys2Proof.Machine

/-- COUNT (42_frequency_counter.md R202): LEN_RANGE and no change, or the counts. -/
theorem stageCount_cases (s : State) :
    (s.params.ibufBytes < s.inLen.toNat ∧ stageCount s = (s, .err ⟨.lenRange, s.inLen, 0⟩)) ∨
      (s.inLen.toNat ≤ s.params.ibufBytes ∧
        stageCount s =
          ({ s with freq := countBytes s.ibuf s.inLen.toNat, treeValid := false }, .ok)) := by
  unfold stageCount State.lenOutOfRange
  by_cases h : s.params.ibufBytes < s.inLen.toNat
  · exact .inl ⟨h, by simp [h, State.lenRangeError]⟩
  · exact .inr ⟨Nat.le_of_not_lt h, by simp [h]⟩

/-- BUILD (43_tree_builder.md R224): EMPTY_MAP, WEIGHT_OVERFLOW, or the tree of the merge loop. -/
theorem stageBuild_cases (s : State) :
    (alphabetSize s.freq = 0 ∧ stageBuild s = (s.loseTree, .err ⟨.emptyMap, 0, 0⟩)) ∨
      (∃ idx, alphabetSize s.freq ≠ 0 ∧
        mergeAll (alphabetSize s.freq) (seedLeaves s.freq s.node) = .error idx ∧
        stageBuild s = (s.loseTree, .err ⟨.weightOverflow, BitVec.ofNat 32 idx, 0⟩)) ∨
      (∃ m, alphabetSize s.freq ≠ 0 ∧
        mergeAll (alphabetSize s.freq) (seedLeaves s.freq s.node) = .ok m ∧
        stageBuild s =
          ({ s with
              node := m.node
              root := BitVec.ofNat 9 (extractMin m.node m.pq).1
              nnodes := BitVec.ofNat 10 m.idx
              treeValid := true }, .ok)) := by
  unfold stageBuild
  by_cases h : alphabetSize s.freq = 0
  · exact .inl ⟨h, by simp [h]⟩
  · right
    cases hm : mergeAll (alphabetSize s.freq) (seedLeaves s.freq s.node) with
    | error idx => exact .inl ⟨idx, h, rfl, by simp [h]⟩
    | ok m => exact .inr ⟨m, h, rfl, by simp [h]⟩

/-- GEN (44_code_table_generator.md R252): NO_TREE and no change, or the tree's codes. -/
theorem stageGen_cases (s : State) :
    (s.treeValid = false ∧ stageGen s = (s, .err ⟨.noTree, 0, 0⟩)) ∨
      (s.treeValid = true ∧ stageGen s = ({ s with ct := treeCodes s.node s.root }, .ok)) := by
  unfold stageGen
  cases h : s.treeValid
  · exact .inl ⟨rfl, by simp⟩
  · exact .inr ⟨rfl, by simp⟩

/-- PACK (45_bit_packer.md R273): LEN_RANGE, the first byte that fails, or the packed output. -/
theorem stagePack_cases (s : State) :
    (s.params.ibufBytes < s.inLen.toNat ∧
        stagePack s = (s.clearOut, .err ⟨.lenRange, s.inLen, 0⟩)) ∨
      (∃ e, s.inLen.toNat ≤ s.params.ibufBytes ∧
        packFrom s s.inLen.toNat 0 ⟨0, 0, 0, s.obuf⟩ = .error e ∧
        stagePack s = (s.losePacked, .err e)) ∨
      (∃ k, s.inLen.toNat ≤ s.params.ibufBytes ∧
        packFrom s s.inLen.toNat 0 ⟨0, 0, 0, s.obuf⟩ = .ok k ∧
        stagePack s =
          ({ s with
              obuf := flushBits k
              outBits := BitVec.ofNat 32 k.p
              outBytes := BitVec.ofNat 32 ((k.p + 7) / 8)
              outValid := true }, .ok)) := by
  unfold stagePack State.lenOutOfRange
  by_cases h : s.params.ibufBytes < s.inLen.toNat
  · exact .inl ⟨h, by simp [h, State.lenRangeError]⟩
  · right
    cases hk : packFrom s s.inLen.toNat 0 ⟨0, 0, 0, s.obuf⟩ with
    | error e => exact .inl ⟨e, Nat.le_of_not_lt h, rfl, by simp [h]⟩
    | ok k => exact .inr ⟨k, Nat.le_of_not_lt h, rfl, by simp [h]⟩

/-- What a packing error says (60_exceptions.md R321, R322): CODEBOOK_MISS or OBUF_OVERFLOW, at an input
index, with the byte there. -/
theorem packFrom_error {s : State} {n i : Nat} {k : PackState} {e : CmdError}
    (h : packFrom s n i k = .error e) :
    ∃ j, i ≤ j ∧ j < i + n ∧ e.info = BitVec.ofNat 32 j ∧ e.sym = s.ibuf.readByte j ∧
      (e.name = .codebookMiss ∨ e.name = .obufOverflow) := by
  induction n generalizing i k with
  | zero => simp [packFrom] at h
  | succ n ih =>
    unfold packFrom at h
    simp only at h
    split at h
    · cases h; exact ⟨i, le_refl i, by omega, rfl, rfl, .inl rfl⟩
    · split at h
      · cases h; exact ⟨i, le_refl i, by omega, rfl, rfl, .inr rfl⟩
      · obtain ⟨j, h1, h2, h3⟩ := ih h
        exact ⟨j, by omega, by omega, h3⟩

/-- ENCODE (46_encode_pipeline.md R300): how far the stages went. -/
theorem stageEncode_cases (s : State) :
    (∃ s₁ e, stageCount s = (s₁, .err e) ∧ stageEncode s = (s₁, .err e)) ∨
      (∃ s₁, stageCount s = (s₁, .ok) ∧ alphabetSize s₁.freq = 0 ∧
        stageEncode s = (s₁.emptyResult, .ok)) ∨
      (∃ s₁ s₂ e, stageCount s = (s₁, .ok) ∧ alphabetSize s₁.freq ≠ 0 ∧
        stageBuild s₁ = (s₂, .err e) ∧ stageEncode s = (s₂.clearOut, .err e)) ∨
      (∃ s₁ s₂ s₃ e, stageCount s = (s₁, .ok) ∧ alphabetSize s₁.freq ≠ 0 ∧
        stageBuild s₁ = (s₂, .ok) ∧ stageGen s₂ = (s₃, .err e) ∧
        stageEncode s = (s₃.clearOut, .err e)) ∨
      (∃ s₁ s₂ s₃, stageCount s = (s₁, .ok) ∧ alphabetSize s₁.freq ≠ 0 ∧
        stageBuild s₁ = (s₂, .ok) ∧ stageGen s₂ = (s₃, .ok) ∧ stageEncode s = stagePack s₃) := by
  unfold stageEncode
  rcases h1 : stageCount s with ⟨s₁, _ | e⟩
  · by_cases hk : alphabetSize s₁.freq = 0
    · exact .inr (.inl ⟨s₁, rfl, hk, by simp [hk]⟩)
    · rcases h2 : stageBuild s₁ with ⟨s₂, _ | e⟩
      · rcases h3 : stageGen s₂ with ⟨s₃, _ | e⟩
        · exact .inr (.inr (.inr (.inr ⟨s₁, s₂, s₃, rfl, hk, h2, h3, by simp [hk, h2, h3]⟩)))
        · exact .inr (.inr (.inr (.inl
            ⟨s₁, s₂, s₃, e, rfl, hk, h2, h3, by simp [hk, h2, h3, stageFail]⟩)))
      · exact .inr (.inr (.inl ⟨s₁, s₂, e, rfl, hk, h2, by simp [hk, h2, stageFail]⟩))
  · exact .inl ⟨s₁, e, rfl, rfl⟩

end Sys2Proof.Machine
end

