-- ==== Sys2Proof/Laws/Step.lean ====
section
/-! SUPPORT. What a step can do. -/

set_option Elab.async false

namespace Sys2Proof.Machine

/-- The next event's state is the state without that event. -/
theorem nextEvent_state (s : State) : (nextEvent s).2 = s.withEvents s.events.tail := by
  unfold nextEvent
  cases he : s.events with
  | nil => cases s; simp_all [State.withEvents]
  | cons e rest => rfl

/-- A listed event is the next one. -/
theorem nextEvent_cons {s : State} {e : Event} {rest : List Event} (h : s.events = e :: rest) :
    nextEvent s = (e, s.withEvents rest) := by
  simp [nextEvent, h]

/-- With no event left, the engine moves. -/
theorem nextEvent_nil {s : State} (h : s.events = []) : nextEvent s = (.complete, s) := by
  simp [nextEvent, h]

/-- A host transaction next. -/
theorem step_bus {s : State} {t : BusTxn} {rest : List Event} (h : s.events = .bus t :: rest) :
    step s = hostStep t (s.withEvents rest) := by
  simp [step, nextEvent_cons h, runEvent]

/-- A completion next. -/
theorem step_complete {s : State} {rest : List Event} (h : s.events = .complete :: rest) :
    step s = engineStep (s.withEvents rest) := by
  simp [step, nextEvent_cons h, runEvent]

/-- Hardware reset next. -/
theorem step_reset {s : State} {rest : List Event} (h : s.events = .reset :: rest) :
    step s = .next (State.afterReset s.params s.draws rest) := by
  simp [step, nextEvent_cons h, runEvent, resetStep]

/-- No event left. -/
theorem step_empty {s : State} (h : s.events = []) : step s = engineStep s := by
  simp [step, nextEvent_nil h, runEvent]

/-- A transaction runs its instruction, or ends with a bus error. -/
theorem hostStep_cases {t : BusTxn} {s s' : State} (h : hostStep t s = .next s') :
    (∃ i, decode (.bus t) = .ok i ∧ exec i s = .next s') ∨
      (∃ r, decode (.bus t) = .error r ∧ s' = s.busError t) := by
  unfold hostStep at h
  split at h
  · exact .inl ⟨_, ‹_›, h⟩
  · exact .inr ⟨_, ‹_›, by simpa using h.symm⟩

/-- The engine completes the decoded command, or an illegal word, or does nothing while idle. -/
theorem engineStep_cases {s s' : State} (h : engineStep s = .next s') :
    (s.busy = true ∧ ∃ i, decode (.cmd s.pending) = .ok i ∧ exec i s = .next s') ∨
      (s.busy = true ∧ ∃ r, decode (.cmd s.pending) = .error r ∧
        s' = complete (stageIllegal s)) ∨
      (s.busy = false ∧ s' = s) := by
  unfold engineStep at h
  split at h
  · rename_i hb
    split at h
    · exact .inl ⟨hb, _, ‹_›, h⟩
    · exact .inr (.inl ⟨hb, _, ‹_›, by simpa [execIllegalWord] using h.symm⟩)
  · rename_i hb
    exact .inr (.inr ⟨by simpa using hb, by simpa using h.symm⟩)

/-- A step is a host transaction's, the engine's, or a reset. -/
theorem step_cases {s s' : State} (h : step s = .next s') :
    (∃ t, (nextEvent s).1 = .bus t ∧ hostStep t (s.withEvents s.events.tail) = .next s') ∨
      ((nextEvent s).1 = .complete ∧ engineStep (s.withEvents s.events.tail) = .next s') ∨
      ((nextEvent s).1 = .reset ∧ s' = resetStep (s.withEvents s.events.tail)) := by
  unfold step at h
  rw [nextEvent_state] at h
  cases he : (nextEvent s).1 with
  | bus t => exact .inl ⟨t, rfl, by simpa [he, runEvent] using h⟩
  | complete => exact .inr (.inl ⟨rfl, by simpa [he, runEvent] using h⟩)
  | reset => exact .inr (.inr ⟨rfl, by simpa [he, runEvent] using h.symm⟩)

end Sys2Proof.Machine
end

