-- ==== Sys2Proof/Tests/Slice0.lean ====
section
/-! SUPPORT. Tests: one step each, on small states, with the results 95_test_vectors.md gives; then, for every
statement that has hypotheses, a state and operands that meet them all. -/

set_option Elab.async false

namespace Sys2Proof.Tests

open Sys2Proof Sys2Proof.Machine

/-! ## Helpers -/

/-- A transaction with SIZE 4 and the operation code `op` (30_encoding.md R101). -/
def onBus (op : BitVec 9) (v : Word) : Packet :=
  .bus ⟨op.getLsbD 8, op.extractLsb' 0 8, .four, v⟩

/-- Buffers of 16 bytes: P_IBUF_AW = P_OBUF_AW = 4. -/
def small : Config.Params := ⟨0, 0⟩

/-- An instance after reset. -/
def start (p : Config.Params) : State := State.afterReset p 0 []

/-- ENCODE accepted and not yet completed. -/
def busyState : State := { start small with busy := true, pending := 6, lastOp := 6 }

/-- IBUF holds these bytes from index 0 on, and IN_LEN is their number. -/
def withInput (s : State) (bytes : List Byte) : State :=
  { s with
    ibuf := ⟨0, (List.range bytes.length).zip bytes⟩
    inLen := BitVec.ofNat 32 bytes.length }

/-- FREQ with these counts, every other one 0. -/
def counts (cs : List (Byte × Word)) : Vector Word 256 :=
  cs.foldl (fun f c => setEntry f c.1 c.2) zeroFreq

/-- CT with these codes, every other entry invalid. -/
def codes (cs : List (Byte × List Bool)) : Vector CodeEntry 256 :=
  cs.foldl (fun t c => setEntry t c.1 ⟨true, BitVec.ofNat 8 c.2.length, c.2⟩) emptyCodes

/-- The outcome is a next state with a property. -/
def ran (o : Out) (p : State → Bool) : Bool :=
  match o with
  | .next t => p t
  | _ => false

/-- The entries of a table at some symbols. -/
def entries {α : Type} (t : Vector α 256) (cs : List Byte) : List α := cs.map (entryAt t)

/-- AAABBC (W1). -/
def textABC : List Byte := [0x41, 0x41, 0x41, 0x42, 0x42, 0x43]

/-- The counts of AAABBC (W1). -/
def countsABC : Vector Word 256 := counts [(0x41, 3), (0x42, 2), (0x43, 1)]

/-- The codes of AAABBC (W1): A "0", B "11", C "10". -/
def codesABC : Vector CodeEntry 256 :=
  codes [(0x41, [false]), (0x42, [true, true]), (0x43, [true, false])]

/-- The nodes of AAABBC (W1, T4.1). -/
def nodesABC : List (Nat × Node) :=
  [(0, .leaf 0x41 3), (1, .leaf 0x42 2), (2, .leaf 0x43 1), (3, .internal 3 2 1),
    (4, .internal 6 0 3)]

/-- The state after BUILD on the counts of AAABBC. -/
def treeABC : State :=
  { start small with
    freq := countsABC, node := ⟨2, nodesABC⟩, root := 4, nnodes := 5, treeValid := true }

/-- The state after BUILD on nine 0x07 (T4.5). -/
def treeOne : State :=
  { start small with
    freq := counts [(0x07, 9)], node := ⟨2, [(0, .leaf 0x07 9)]⟩, root := 0, nnodes := 1
    treeValid := true }

/-! ## Well-formed instructions: the one check, and terms it refuses -/

theorem test_wellFormed_rdRsvd80 : (Instr.rdRsvd80 0x7C).wellFormed = true ∧
    (Instr.rdRsvd80 0x01).wellFormed = false ∧ (Instr.rdRsvd80 0x7E).wellFormed = false := by
  decide

theorem test_wellFormed_wrRsvd80 : (Instr.wrRsvd80 0x24 7).wellFormed = true ∧
    (Instr.wrRsvd80 0x03 7).wellFormed = false ∧ (Instr.wrRsvd80 0x02 0).wellFormed = false := by
  decide

/-! ## Decoding: every constructor's word, from the spec's encodings -/

/-- The command words: OPCODE in [7:0], RSVD 0 (R103, R106). -/
def commandWords : List (Packet × Instr) :=
  [ (.cmd 0x00000000, .nop), (.cmd 0x00000001, .clrf), (.cmd 0x00000002, .count),
    (.cmd 0x00000003, .build), (.cmd 0x00000004, .gen), (.cmd 0x00000005, .pack),
    (.cmd 0x00000006, .encode), (.cmd 0x00000007, .srst), (.cmd 0x0000000D, .illegal08 5),
    (.cmd 0x0000001A, .illegal10 10), (.cmd 0x00000031, .illegal20 17),
    (.cmd 0x00000066, .illegal40 38), (.cmd 0x000000FF, .illegal80 127) ]

/-- The reads of 0x00 to 0x3C (R109). -/
def readWordsLow : List (Packet × Instr) :=
  [ (onBus 0b0_0000_0000 0, .rdId), (onBus 0b0_0000_0100 0, .rdVersion),
    (onBus 0b0_0000_1000 0, .rdCapIbuf), (onBus 0b0_0000_1100 0, .rdCapObuf),
    (onBus 0b0_0001_0000 0, .rdCmd), (onBus 0b0_0001_0100 0, .rdStatus),
    (onBus 0b0_0001_1000 0, .rdIrqEn), (onBus 0b0_0001_1100 0, .rdErrCode),
    (onBus 0b0_0010_0000 0, .rdErrInfo), (onBus 0b0_0010_0100 0, .rdErrSym),
    (onBus 0b0_0010_1000 0, .rdInLen), (onBus 0b0_0010_1100 0, .rdIbufAddr),
    (onBus 0b0_0011_0000 0, .rdIbufData), (onBus 0b0_0011_0100 0, .rdObufAddr),
    (onBus 0b0_0011_1000 0, .rdObufData), (onBus 0b0_0011_1100 0, .rdOutBytes) ]

/-- The reads of 0x40 to 0xFC (R109). -/
def readWordsHigh : List (Packet × Instr) :=
  [ (onBus 0b0_0100_0000 0, .rdOutBits), (onBus 0b0_0100_0100 0, .rdFreqSel),
    (onBus 0b0_0100_1000 0, .rdFreqData), (onBus 0b0_0100_1100 0, .rdNsym),
    (onBus 0b0_0101_0000 0, .rdCtSel), (onBus 0b0_0101_0100 0, .rdCtLen),
    (onBus 0b0_0101_1000 0, .rdCtMaxlen), (onBus 0b0_0110_0000 0, .rdCtWord0),
    (onBus 0b0_0110_0100 0, .rdCtWord1), (onBus 0b0_0110_1000 0, .rdCtWord2),
    (onBus 0b0_0110_1100 0, .rdCtWord3), (onBus 0b0_0111_0000 0, .rdCtWord4),
    (onBus 0b0_0111_0100 0, .rdCtWord5), (onBus 0b0_0111_1000 0, .rdCtWord6),
    (onBus 0b0_0111_1100 0, .rdCtWord7), (onBus 0b0_0101_1100 0, .rdRsvd5c),
    (onBus 0b0_1111_1100 0, .rdRsvd80 0x7C) ]

/-- The writes of 0x00 to 0x3C (R109). -/
def writeWordsLow : List (Packet × Instr) :=
  [ (onBus 0b1_0000_0000 0xA5C3F01E, .wrId 0xA5C3F01E),
    (onBus 0b1_0000_0100 0xA5C3F01E, .wrVersion 0xA5C3F01E),
    (onBus 0b1_0000_1000 0xA5C3F01E, .wrCapIbuf 0xA5C3F01E),
    (onBus 0b1_0000_1100 0xA5C3F01E, .wrCapObuf 0xA5C3F01E),
    (onBus 0b1_0001_0000 0xA5C3F01E, .wrCmd 0xA5C3F01E),
    (onBus 0b1_0001_0100 0xA5C3F01E, .wrStatus 0xA5C3F01E),
    (onBus 0b1_0001_1000 0xA5C3F01E, .wrIrqEn 0xA5C3F01E),
    (onBus 0b1_0001_1100 0xA5C3F01E, .wrErrCode 0xA5C3F01E),
    (onBus 0b1_0010_0000 0xA5C3F01E, .wrErrInfo 0xA5C3F01E),
    (onBus 0b1_0010_0100 0xA5C3F01E, .wrErrSym 0xA5C3F01E),
    (onBus 0b1_0010_1000 0xA5C3F01E, .wrInLen 0xA5C3F01E),
    (onBus 0b1_0010_1100 0xA5C3F01E, .wrIbufAddr 0xA5C3F01E),
    (onBus 0b1_0011_0000 0xA5C3F01E, .wrIbufData 0xA5C3F01E),
    (onBus 0b1_0011_0100 0xA5C3F01E, .wrObufAddr 0xA5C3F01E),
    (onBus 0b1_0011_1000 0xA5C3F01E, .wrObufData 0xA5C3F01E),
    (onBus 0b1_0011_1100 0xA5C3F01E, .wrOutBytes 0xA5C3F01E) ]

/-- The writes of 0x40 to 0xFC (R109). -/
def writeWordsHigh : List (Packet × Instr) :=
  [ (onBus 0b1_0100_0000 0xA5C3F01E, .wrOutBits 0xA5C3F01E),
    (onBus 0b1_0100_0100 0xA5C3F01E, .wrFreqSel 0xA5C3F01E),
    (onBus 0b1_0100_1000 0xA5C3F01E, .wrFreqData 0xA5C3F01E),
    (onBus 0b1_0100_1100 0xA5C3F01E, .wrNsym 0xA5C3F01E),
    (onBus 0b1_0101_0000 0xA5C3F01E, .wrCtSel 0xA5C3F01E),
    (onBus 0b1_0101_0100 0xA5C3F01E, .wrCtLen 0xA5C3F01E),
    (onBus 0b1_0101_1000 0xA5C3F01E, .wrCtMaxlen 0xA5C3F01E),
    (onBus 0b1_0110_0000 0xA5C3F01E, .wrCtWord0 0xA5C3F01E),
    (onBus 0b1_0110_0100 0xA5C3F01E, .wrCtWord1 0xA5C3F01E),
    (onBus 0b1_0110_1000 0xA5C3F01E, .wrCtWord2 0xA5C3F01E),
    (onBus 0b1_0110_1100 0xA5C3F01E, .wrCtWord3 0xA5C3F01E),
    (onBus 0b1_0111_0000 0xA5C3F01E, .wrCtWord4 0xA5C3F01E),
    (onBus 0b1_0111_0100 0xA5C3F01E, .wrCtWord5 0xA5C3F01E),
    (onBus 0b1_0111_1000 0xA5C3F01E, .wrCtWord6 0xA5C3F01E),
    (onBus 0b1_0111_1100 0xA5C3F01E, .wrCtWord7 0xA5C3F01E),
    (onBus 0b1_0101_1100 0xA5C3F01E, .wrRsvd5c 0xA5C3F01E),
    (onBus 0b1_1010_0100 0xA5C3F01E, .wrRsvd80 0x24 0xA5C3F01E) ]

/-- Each word decodes to the instruction beside it. -/
def decodesTo (p : Packet × Instr) : Bool := (decode p.1).toOption == some p.2

theorem test_decode_commandWords : commandWords.all decodesTo = true := by decide +kernel
theorem test_decode_readWordsLow : readWordsLow.all decodesTo = true := by decide +kernel
theorem test_decode_readWordsHigh : readWordsHigh.all decodesTo = true := by decide +kernel
theorem test_decode_writeWordsLow : writeWordsLow.all decodesTo = true := by decide +kernel
theorem test_decode_writeWordsHigh : writeWordsHigh.all decodesTo = true := by decide +kernel

/-- What the decoder refuses, by name (T1.23, T1.24, T2.5, T2.6). -/
def refusals : List (Packet × Reject) :=
  [ (.bus ⟨false, 0x14, .one, 0⟩, .badSize), (.bus ⟨true, 0x30, .two, 0⟩, .badSize),
    (.bus ⟨false, 0x02, .four, 0⟩, .unaligned), (.cmd 0x00000100, .noCmdRow),
    (.cmd 0x01000006, .noCmdRow) ]

theorem test_decode_refusals :
    refusals.all (fun p => decide ((decode p.1).isOk = false)) = true ∧
      refusals.map (fun p => match decode p.1 with | .error r => some r | .ok _ => none) =
        refusals.map (fun p => some p.2) := by decide +kernel

theorem test_decodeTableWord : decodeTableWord 16 0x130 = some (.wrIbufData 0) ∧
    decodeTableWord 32 6 = some .encode ∧ decodeTableWord 16 0x200 = none := by decide +kernel

/-! ## Bus transactions (T1) -/

theorem test_rdId : ran (exec .rdId (start small)) (fun t => t.resp == .read 0x48554646 false) =
    true := by decide +kernel

theorem test_rdCap : ran (exec .rdCapIbuf State.reset) (fun t => t.resp == .read 0x10000 false) &&
    ran (exec .rdCapObuf (start small)) (fun t => t.resp == .read 0x10 false) = true := by
  decide +kernel

/-- T1.7. -/
theorem test_wrIrqEn : ran (exec (.wrIrqEn 0xFFFFFFFF) (start small))
    (fun t => decide (t.irqEn = 7)) = true := by decide +kernel

/-- T1.8. -/
theorem test_wrIbufAddr_wraps : ran (exec (.wrIbufAddr 0x13) (start small))
    (fun t => decide (t.ibufAddr = 3)) = true := by decide +kernel

/-- T1.9: bits [31:8] are dropped. -/
theorem test_wrIbufData : ran (exec (.wrIbufData 0x1234) (start small))
    (fun t => decide (t.ibuf.cells = [(0, 0x34)]) && decide (t.ibufAddr = 1)) = true := by
  decide +kernel

/-- T1.11: the last index wraps. -/
theorem test_rdIbufData_wraps :
    ran (exec .rdIbufData { start small with ibuf := ⟨0, [(15, 0xAA)]⟩, ibufAddr := 15 })
      (fun t => t.resp == .read 0xAA false && decide (t.ibufAddr = 0)) = true := by
  decide +kernel

/-- T1.13. -/
theorem test_wrFreqSel : ran (exec (.wrFreqSel 0x141) (start small))
    (fun t => decide (t.freqSel = 0x41)) = true := by decide +kernel

/-- T1.18: the same value clears TREE_VALID too. -/
theorem test_wrFreqData : ran (exec (.wrFreqData 3) { treeABC with freqSel := 0x41 })
    (fun t => !t.treeValid && entries t.freq [0x41, 0x42, 0x43] == [3, 2, 1]) = true := by decide +kernel

theorem test_rdNsym : ran (exec .rdNsym treeABC) (fun t => t.resp == .read 3 false) = true := by
  decide +kernel

/-- T1.22: no effect, and OBUF_ADDR does not advance. -/
theorem test_wrObufData : ran (exec (.wrObufData 0x77) { start small with obufAddr := 5 })
    (fun t => t.resp == .write false && decide (t.obufAddr = 5) && decide (t.obuf.cells = [])) =
    true := by decide +kernel

/-- T1.23. -/
theorem test_step_unaligned_read :
    ran (step { start small with events := [.bus ⟨false, 0x02, .four, 0⟩] })
      (fun t => t.resp == .read 0 true) = true := by decide +kernel

/-- T1.26. -/
theorem test_wrInLen_busy : ran (exec (.wrInLen 3) busyState)
    (fun t => decide (t.inLen = 0) && t.busyViol && t.resp == .write false) = true := by
  decide +kernel

/-- T1.32 and T1.33. -/
theorem test_wrStatus :
    ran (exec (.wrStatus 0xE)
      { treeABC with lastOp := 5, err := true, done := true, errCode := 6, errInfo := 2, errSym := 0x44 })
      (fun t => decide (t.statusWord = 0x510) && decide (t.errCode = 0 ∧ t.errInfo = 0 ∧ t.errSym = 0)) &&
    ran (exec (.wrStatus 0x31)
      { treeABC with lastOp := 5, err := true, done := true, errCode := 6 })
      (fun t => decide (t.statusWord = 0x516 ∧ t.errCode = 6)) = true := by decide +kernel

/-- T2.2. -/
theorem test_wrCmd : ran (exec (.wrCmd 6) { start small with done := true })
    (fun t => t.busy && !t.done && decide (t.lastOp = 6 ∧ t.pending = 6)) = true := by
  decide +kernel

/-- T5.1: CT_LEN and CT_WORD0 of B. -/
theorem test_rdCt : ran (exec .rdCtLen { start small with ct := codesABC, ctSel := 0x42 })
      (fun t => t.resp == .read 0x80000002 false) &&
    ran (exec .rdCtWord0 { start small with ct := codesABC, ctSel := 0x42 })
      (fun t => t.resp == .read 0xC0000000 false) = true := by decide +kernel

/-- T5.6: 44 bits, 43 ones and a zero. -/
theorem test_rdCtWord1 :
    ran (exec .rdCtWord1
      { start small with ct := codes [(0, List.replicate 43 true ++ [false])] })
      (fun t => t.resp == .read 0xFFE00000 false) = true := by decide +kernel

theorem test_rdCtMaxlen : ran (exec .rdCtMaxlen { start small with ct := codesABC })
    (fun t => t.resp == .read 2 false) = true := by decide +kernel

/-! ## Commands (T2 to T7) -/

/-- T2.3 and T2.6: an illegal opcode, and a legal one with RSVD ≠ 0. -/
theorem test_illegal :
    ran (step { start small with busy := true, pending := 0xFF, lastOp := 0xFF })
      (fun t => decide (t.statusWord = 0xFF06 ∧ t.errCode = 1 ∧ t.errInfo = 0xFF)) &&
    ran (step { start small with busy := true, pending := 0x01000006, lastOp := 6 })
      (fun t => decide (t.statusWord = 0x606 ∧ t.errInfo = 0x01000006)) = true := by
  decide +kernel

/-- T2.9. -/
theorem test_srst :
    ran (exec .srst { treeABC with busy := true, lastOp := 7, err := true, errCode := 6, irqEn := 1 })
      (fun t => decide (t.statusWord = 0x702 ∧ t.errCode = 0 ∧ t.irqEn = 0 ∧ entryAt t.freq 0x41 = 0)) = true := by
  decide +kernel

/-- T3.1, with LAST_OP as acceptance left it. -/
theorem test_count : ran (exec .count (withInput { start small with lastOp := 2 } textABC))
    (fun t => entries t.freq [0x40, 0x41, 0x42, 0x43] == [0, 3, 2, 1] &&
      decide (t.statusWord = 0x202)) = true := by
  decide +kernel

/-- T3.5. -/
theorem test_count_range :
    ran (exec .count { start small with inLen := 17, lastOp := 2, freq := counts [(0, 16)] })
      (fun t => decide (t.errCode = 2 ∧ t.errInfo = 0x11 ∧ t.statusWord = 0x206 ∧
        entryAt t.freq 0 = 16)) = true := by decide +kernel

/-- T4.1: the tie of weight 3 goes to the lower index. -/
theorem test_build : ran (exec .build { start small with freq := countsABC, lastOp := 3 })
    (fun t => decide (t.node.cells = nodesABC ∧ t.root = 4 ∧ t.nnodes = 5 ∧ t.statusWord = 0x312)) =
    true := by decide +kernel

/-- T4.3: the second merge takes the two leaves, not the internal node of the same weight. -/
theorem test_build_tie :
    ran (exec .build { start small with freq := counts [(0x61, 1), (0x62, 1), (0x63, 2), (0x64, 2)] })
      (fun t => decide (t.node.cells.drop 4 =
        [(4, .internal 2 0 1), (5, .internal 4 2 3), (6, .internal 6 4 5)])) = true := by
  decide +kernel

/-- T4.8 and T4.9: a sum of 2^32, and one less. -/
theorem test_build_overflow :
    ran (exec .build { start small with freq := counts [(0, 0xFFFFFFFF), (1, 1)], lastOp := 3 })
      (fun t => decide (t.errCode = 4 ∧ t.errInfo = 2 ∧ t.statusWord = 0x306)) &&
    ran (exec .build { start small with freq := counts [(0, 0xFFFFFFFE), (1, 1)], lastOp := 3 })
      (fun t => decide (t.node.readNode 2 = .internal 0xFFFFFFFF 1 0 ∧ t.statusWord = 0x312)) =
    true := by decide +kernel

/-- T5.1. -/
theorem test_gen : ran (exec .gen treeABC) (fun t => entries t.ct [0x41, 0x42, 0x43, 0x44] ==
    [⟨true, 1, [false]⟩, ⟨true, 2, [true, true]⟩, ⟨true, 2, [true, false]⟩, ⟨false, 0, []⟩]) = true := by
  decide +kernel

/-- T5.3: a single symbol gets "0". -/
theorem test_gen_single : ran (exec .gen treeOne)
    (fun t => entries t.ct [0x06, 0x07] == [⟨false, 0, []⟩, ⟨true, 1, [false]⟩]) = true := by decide +kernel

/-- T6.1. -/
theorem test_pack :
    ran (exec .pack (withInput { start small with ct := codesABC, lastOp := 5 } textABC))
      (fun t => decide (t.obuf.cells = [(0, 0x1F), (1, 0x00)] ∧ t.outBits = 9 ∧ t.outBytes = 2 ∧
        t.statusWord = 0x522)) = true := by decide +kernel

/-- T6.12: PACK stops at the first byte without a code. -/
theorem test_pack_miss :
    ran (exec .pack (withInput { start small with ct := codesABC } [0x41, 0x44, 0x41]))
      (fun t => decide (t.errCode = 6 ∧ t.errInfo = 1 ∧ t.errSym = 0x44 ∧ t.outBits = 0)) = true := by
  decide +kernel

/-- T7.1. -/
theorem test_encode : ran (exec .encode (withInput { start small with lastOp := 6 } textABC))
    (fun t => decide (t.obuf.cells = [(0, 0x1F), (1, 0x00)] ∧ entryAt t.ct 0x42 = ⟨true, 2, [true, true]⟩ ∧
      t.statusWord = 0x632)) = true := by decide +kernel

/-- T7.3. -/
theorem test_encode_empty : ran (exec .encode { start small with lastOp := 6 })
    (fun t => decide (t.statusWord = 0x622 ∧ t.outBytes = 0)) = true := by decide +kernel

/-! ## Witnesses: the hypotheses of each statement, met together -/

theorem witness_DecodeOfEncodeIsTheInstruction :
    (Instr.wrRsvd80 0x7C 0xFFFFFFFF).wellFormed = true := by decide

theorem witness_EncodeOfDecodeIsThePacket : decode (.cmd 0x000000FF) = .ok (.illegal80 0x7F) ∧
    decode (.bus ⟨false, 0x28, .four, 5⟩) = .ok .rdInLen := ⟨by rfl, by rfl⟩

theorem witness_DecoderRefusesExactlyTheMisshaped :
    (⟨true, 0xFC, .four, 9⟩ : BusTxn).offset.extractLsb' 0 2 = 0 := by decide

/-- One witness for each clause. -/
theorem witness_StepRunsTheDecodedInstruction :
    decode (readOf 0x14) = .ok .rdStatus ∧ decode (.cmd busyState.pending) = .ok .encode ∧
    busyState.busy = true ∧ busyState.events = [] ∧
    ({ start small with events := [.bus ⟨false, 0x14, .four, 0⟩] } : State).events =
      .bus ⟨false, 0x14, .four, 0⟩ :: [] ∧
    ({ busyState with events := [.complete] } : State).events = .complete :: [] ∧
    (start small).busy = false ∧ (start small).events = [] :=
  ⟨rfl, rfl, rfl, rfl, rfl, rfl, rfl, rfl⟩

theorem witness_BusErrorChangesNothing :
    (AccessSize.two ≠ .four ∨ (0x30 : BitVec 8).extractLsb' 0 2 ≠ 0) ∧
    (AccessSize.four ≠ .four ∨ (0xFE : BitVec 8).extractLsb' 0 2 ≠ 0) ∧
    ({ start small with events := [.bus ⟨true, 0x30, .two, 5⟩] } : State).events =
      .bus ⟨true, 0x30, .two, 5⟩ :: [] ∧
    ({ start small with events := [.bus ⟨false, 0xFE, .four, 0⟩] } : State).events =
      .bus ⟨false, 0xFE, .four, 0⟩ :: [] :=
  ⟨by decide, by decide, rfl, rfl⟩

theorem witness_StepTakesOneEvent : ∃ t, step busyState = .next t := ⟨_, rfl⟩

theorem witness_ExactReads : (0x00 : BitVec 7).extractLsb' 0 2 = 0 ∧
    (0x7C : BitVec 7).extractLsb' 0 2 = 0 := by decide

/-- For StatusRead, the reads and writes while BUSY = 0, and those while BUSY = 1. -/
theorem witness_busy_and_idle : State.reset.busy = false ∧ busyState.busy = true := ⟨rfl, rfl⟩

theorem witness_CodeWordReads :
    codeWordReads[0]? = some .rdCtWord0 ∧ codeWordReads[7]? = some .rdCtWord7 ∧
      State.reset.busy = false := by decide

theorem witness_BusyReadsReturnDraws :
    busyState.busy = true ∧ .rdIbufData ∈ drawWhileBusy ∧ .rdCtWord7 ∈ drawWhileBusy := by decide

theorem witness_IgnoredWritesChangeNothing :
    (0x00, .wrId 5) ∈ readOnlyWrites 5 ∧ (0x7C, .wrCtWord7 5) ∈ readOnlyWrites 5 ∧
      (0x7C : BitVec 7).extractLsb' 0 2 = 0 := by decide

theorem witness_BusyWritesAreRejected :
    busyState.busy = true ∧ (0x10, .wrCmd 7) ∈ busySensitive 7 ∧ (0x50, .wrCtSel 7) ∈ busySensitive 7 ∧
      ({ busyState with irqEn := 4 } : State).irqEn.getLsbD 2 = true := by decide

/-- The addresses 0 and 2^P_IBUF_AW - 1 are both in range. -/
theorem witness_DataWindows : (start small).busy = false ∧
    ({ start small with ibufAddr := 15 } : State).ibufAddr.toNat < (start small).params.ibufBytes ∧
    (start small).ibufAddr.toNat < (start small).params.ibufBytes := by decide

/-- An illegal opcode, the lowest one, and RSVD ≠ 0 alone. -/
theorem witness_IllegalWordsComplete :
    8 ≤ ((0x00000008 : Word).extractLsb' 0 8).toNat ∧ (0x00000100 : Word).extractLsb' 8 24 ≠ 0 ∧
    ({ busyState with pending := 0x100, events := [.complete] } : State).busy = true ∧
    ({ busyState with pending := 0x100, events := [.complete] } : State).events = .complete :: [] :=
  ⟨by decide, by decide, rfl, rfl⟩

/-- SRST accepted, and BUSY = 1. -/
theorem witness_SoftReset : ({ busyState with lastOp := 7 } : State).lastOp = 0x07 ∧
    ({ busyState with lastOp := 7 } : State).busy = true := ⟨rfl, rfl⟩

theorem witness_HardwareReset :
    ({ busyState with events := [.reset, .complete] } : State).events = .reset :: [.complete] := rfl

/-- IN_LEN = 0 and IN_LEN = P_IBUF_BYTES are in range, and COUNT answers. -/
theorem witness_CountMakesTheHistogram :
    (start small).inLen.toNat ≤ (start small).params.ibufBytes ∧
    ({ start small with inLen := 16 } : State).inLen.toNat ≤ (start small).params.ibufBytes ∧
    ∃ t, exec .count { start small with inLen := 16 } = .next t :=
  ⟨by decide, by decide, _, rfl⟩

theorem witness_CountIgnoresTheOrder :
    (inputBytes (withInput (start small) [1, 2, 1])).Perm
      (inputBytes (withInput State.reset [2, 1, 1])) ∧
    (withInput (start small) [1, 2, 1]).inLen.toNat ≤ (start small).params.ibufBytes ∧
    (withInput State.reset [2, 1, 1]).inLen.toNat ≤ State.reset.params.ibufBytes ∧
    (∃ t, exec .count (withInput (start small) [1, 2, 1]) = .next t) ∧
    ∃ t, exec .count (withInput State.reset [2, 1, 1]) = .next t :=
  ⟨by decide +kernel, by decide, by decide, ⟨_, rfl⟩, _, rfl⟩

theorem witness_LengthErrors : (start small).params.ibufBytes <
    ({ start small with inLen := 17 } : State).inLen.toNat := by decide

theorem witness_EmptyMapFails : ∀ c, entryAt (start small).freq c = 0 := entryAt_zeroFreq

theorem witness_ExtractMinTakesTheSmallestKey :
    [0, 3] ≠ [] ∧ 0 ∈ [0, 3] ∧ 0 ≠ (extractMin ⟨2, nodesABC⟩ [3, 1]).1 := by decide +kernel

/-- The largest sum that succeeds. -/
theorem witness_BuildMakesTheTree :
    (∃ c, entryAt (counts [(0, 0xFFFFFFFE), (1, 1)]) c ≠ 0) ∧
      totalCount (counts [(0, 0xFFFFFFFE), (1, 1)]) = 2 ^ 32 - 1 :=
  ⟨⟨1, by decide +kernel⟩, by decide +kernel⟩

theorem alphabetABC : presentSymbols countsABC = [0x41, 0x42, 0x43] := by decide +kernel
theorem alphabetOne : presentSymbols treeOne.freq = [0x07] := by decide +kernel
theorem sizeABC : alphabetSize treeABC.freq = 3 := congrArg List.length alphabetABC
theorem sizeOne : alphabetSize treeOne.freq = 1 := congrArg List.length alphabetOne

theorem witness_BuildMergesTheSmallestKeys :
    (∃ c, entryAt treeABC.freq c ≠ 0) ∧ totalCount treeABC.freq < 2 ^ 32 ∧
    alphabetSize treeABC.freq ≤ 4 ∧ 4 < 2 * alphabetSize treeABC.freq - 1 ∧
    ∃ t, exec .build treeABC = .next t :=
  ⟨⟨0x41, by decide +kernel⟩, by decide +kernel, by simp [sizeABC], by simp [sizeABC], _, rfl⟩

/-- The smallest sum that fails. -/
theorem witness_BuildOverflows : totalCount (counts [(0, 0xFFFFFFFF), (1, 1)]) = 2 ^ 32 := by
  decide +kernel

/-- Equal counts over different NODE tables. -/
theorem witness_BuildDependsOnFreqOnly :
    treeABC.freq = ({ start small with freq := countsABC } : State).freq ∧
    ran (exec .build treeABC) (fun t => t.treeValid) = true ∧
    ∃ t, exec .build { start small with freq := countsABC } = .next t :=
  ⟨rfl, by decide +kernel, _, rfl⟩

theorem witness_GenWithoutATreeFails : (start small).treeValid = false := rfl

theorem witness_TreeOf : TreeOf treeABC.freq treeABC.node treeABC.root treeABC.nnodes where
  nonempty := by simp [sizeABC]
  count := by rw [sizeABC]; rfl
  rootIndex := by rw [sizeABC]; rfl
  leaves := by
    rw [sizeABC, show presentSymbols treeABC.freq = _ from alphabetABC]
    decide +kernel
  internals := by
    intro x hx hy
    rw [sizeABC] at hx hy
    obtain rfl | rfl : x = 3 ∨ x = 4 := by omega
    · decide +kernel
    · decide +kernel
  parents := by
    rw [sizeABC]
    decide +kernel

theorem witness_TreeOf_single :
    TreeOf treeOne.freq treeOne.node treeOne.root treeOne.nnodes where
  nonempty := by simp [sizeOne]
  count := by rw [sizeOne]; rfl
  rootIndex := by rw [sizeOne]; rfl
  leaves := by
    rw [sizeOne, alphabetOne]
    decide +kernel
  internals := by
    intro x hx hy
    rw [sizeOne] at hx hy
    omega
  parents := by
    rw [sizeOne]
    decide +kernel

/-- Both clauses: several symbols, and one alone; a symbol in the alphabet, and one outside. -/
theorem witness_GenAssignsThePaths :
    treeABC.treeValid = true ∧ TreeOf treeABC.freq treeABC.node treeABC.root treeABC.nnodes ∧
    entryAt treeABC.freq 0x42 ≠ 0 ∧ 1 < alphabetSize treeABC.freq ∧ entryAt treeABC.freq 0x44 = 0 ∧
    treeOne.treeValid = true ∧ TreeOf treeOne.freq treeOne.node treeOne.root treeOne.nnodes ∧
    entryAt treeOne.freq 0x07 ≠ 0 ∧ alphabetSize treeOne.freq = 1 :=
  ⟨rfl, witness_TreeOf, by decide +kernel, by simp [sizeABC], by decide +kernel, rfl,
    witness_TreeOf_single, by decide +kernel, sizeOne⟩

/-- Sixteen bytes with codes of 8 bits: IN_LEN = P_IBUF_BYTES, and an exact fit of OBUF (T6.11). -/
def exactFit : State :=
  withInput { start small with ct := codes [(0, List.replicate 7 true ++ [false])] }
    (List.replicate 16 0)

theorem witness_PackWritesTheStream :
    exactFit.inLen.toNat ≤ exactFit.params.ibufBytes ∧
    (∀ x ∈ inputBytes exactFit, (entryAt exactFit.ct x).valid = true) ∧
    (codeStream exactFit.ct (inputBytes exactFit)).length = 8 * exactFit.params.obufBytes := by
  decide +kernel

/-- A byte without a code at index 1, and codes of 9 bits of which the fifteenth does not fit (T6.10). -/
theorem witness_PackFailsAtTheFirstByte :
    let s := withInput { start small with ct := codesABC } [0x41, 0x44, 0x41]
    let r := withInput { start small with ct := codes [(0, List.replicate 8 true ++ [false])] }
      (List.replicate 16 0)
    (s.inLen.toNat ≤ s.params.ibufBytes ∧ 1 < s.inLen.toNat ∧
      (∀ x ∈ (inputBytes s).take 1, (entryAt s.ct x).valid = true) ∧
      (codeStream s.ct ((inputBytes s).take 1)).length ≤ 8 * s.params.obufBytes ∧
      (entryAt s.ct (s.ibuf.readByte 1)).valid = false) ∧
    r.inLen.toNat ≤ r.params.ibufBytes ∧ 14 < r.inLen.toNat ∧
      (∀ x ∈ (inputBytes r).take 14, (entryAt r.ct x).valid = true) ∧
      (codeStream r.ct ((inputBytes r).take 14)).length ≤ 8 * r.params.obufBytes ∧
      (entryAt r.ct (r.ibuf.readByte 14)).valid = true ∧
      8 * r.params.obufBytes < (codeStream r.ct ((inputBytes r).take 15)).length := by
  decide +kernel

theorem validABC : ∀ c, (entryAt codesABC c).valid = true → c ∈ ([0x41, 0x42, 0x43] : List Byte) := by
  decide +kernel

theorem witness_CodesOk : CodesOk codesABC where
  invalid := by decide +kernel
  shape c hc := by
    have h : ∀ c ∈ ([0x41, 0x42, 0x43] : List Byte), 1 ≤ (entryAt codesABC c).len.toNat ∧
      (entryAt codesABC c).code.length = (entryAt codesABC c).len.toNat := by decide +kernel
    exact h c (validABC c hc)
  prefixFree c d hc hd := by
    have h : ∀ c ∈ ([0x41, 0x42, 0x43] : List Byte), ∀ d ∈ ([0x41, 0x42, 0x43] : List Byte),
      c ≠ d → ¬ (entryAt codesABC c).code <+: (entryAt codesABC d).code := by decide +kernel
    exact h c (validABC c hc) d (validABC d hd)

theorem witness_BitStreamHasOneReading :
    CodesOk codesABC ∧ (∀ x ∈ textABC, (entryAt codesABC x).valid = true) ∧
      codeStream codesABC textABC = [false, false, false, true, true, true, true, true, false] :=
  ⟨witness_CodesOk, by decide +kernel, by decide +kernel⟩

theorem witness_EncodeOfTheEmptyInput : (start small).inLen = 0 := rfl

/-- For EncodeIsTheStageSequence and EncodeOnlyOverflows; the stream fits. -/
theorem witness_EncodeIsTheStageSequence :
    (withInput (start small) textABC).inLen ≠ 0 ∧
    (withInput (start small) textABC).inLen.toNat ≤ (start small).params.ibufBytes ∧
    ran (exec .encode (withInput (start small) textABC)) (fun t =>
      decide ((codeStream t.ct textABC).length ≤ 8 * t.params.obufBytes)) = true := by decide +kernel

/-- The symbols 0..16, once or twice each. -/
def seventeen : List Byte := (List.range 32).map (fun i => BitVec.ofNat 8 (i % 17))

/-- A stream that does not fit: 32 bytes of 17 symbols take more than 4 bits each, and OBUF holds 128. -/
theorem witness_EncodeOnlyOverflows :
    ran (exec .encode
      (withInput (start ⟨1, 0⟩) seventeen)) (fun t =>
        decide (8 * t.params.obufBytes < (codeStream t.ct seventeen).length)) = true := by decide +kernel

/-- The same input, from two states. -/
theorem witness_EncodeDependsOnTheInputOnly :
    let s := withInput (start small) textABC
    let r := withInput treeABC textABC
    s.params = r.params ∧ s.inLen = r.inLen ∧ s.inLen.toNat ≤ s.params.ibufBytes ∧
      inputBytes s = inputBytes r ∧ (∃ t, exec .encode s = .next t) ∧
      ∃ t, exec .encode r = .next t :=
  ⟨rfl, rfl, by decide, by decide +kernel, ⟨_, rfl⟩, _, rfl⟩

theorem witness_CommandErrorsFollowTheTable : decode (.cmd 0x000000FF) = .ok (.illegal80 0x7F) ∧
    ∃ t, exec (.illegal80 0x7F) { busyState with pending := 0xFF } = .next t :=
  ⟨rfl, _, rfl⟩

theorem witness_TransactionsSpareTheRunningCommand :
    let s := { busyState with events := [.bus ⟨true, 0x28, .four, 3⟩] }
    s.busy = true ∧ s.events = .bus ⟨true, 0x28, .four, 3⟩ :: [] ∧ ∃ t, step s = .next t :=
  ⟨rfl, rfl, _, rfl⟩

/-- Each memory and table does change somewhere. -/
theorem witness_WritersOfMemoriesAndTables :
    ran (exec (.wrIbufData 1) (start small)) (fun t => decide (t.ibuf ≠ (start small).ibuf)) &&
    ran (exec .pack (withInput { start small with ct := codesABC } textABC))
      (fun t => decide (t.obuf ≠ (start small).obuf)) &&
    ran (exec (.wrFreqData 1) (start small)) (fun t => entryAt t.freq 0 != 0) &&
    ran (exec .build { start small with freq := countsABC })
      (fun t => decide (t.node ≠ (start small).node)) &&
    ran (exec .gen treeABC) (fun t => (entryAt t.ct 0x41).valid) = true := by decide +kernel

/-- Each flag is set and then cleared somewhere. -/
theorem witness_StickyFlagsClearByTheirEvents :
    let s := { start small with done := true, err := true, errCode := 6, busyViol := true }
    (s.done = true ∧ s.err = true ∧ s.busyViol = true) ∧
    ran (exec (.wrStatus 0xE) s) (fun t => !t.done && !t.err && !t.busyViol) &&
      ran (exec (.wrCmd 0) s) (fun t => !t.done) &&
      ran (exec .srst s) (fun t => !t.err && !t.busyViol) = true := by decide +kernel

/-- A step that accepts a command, and one that completes it. -/
theorem witness_OneCommandInFlight :
    ({ start small with events := [.bus ⟨true, 0x10, .four, 6⟩] } : State).events.head? ≠ some .reset ∧
    ran (step { start small with events := [.bus ⟨true, 0x10, .four, 6⟩] })
      (fun t => t.busy && decide (t.pending ≠ 0)) = true ∧
    busyState.events.head? ≠ some .reset ∧ ran (step busyState) (fun t => !t.busy) = true := by
  decide +kernel

theorem witness_InterruptFollowsThePendingBits :
    let s := { busyState with irqEn := 1 }
    decode (.cmd 6) = .ok .encode ∧ (∃ t, exec .encode s = .next t) ∧ s.irqEn.getLsbD 0 = true ∧
      (∃ t, exec .srst s = .next t) ∧ ∃ t, exec (.wrIrqEn 0) s = .next t :=
  ⟨rfl, ⟨_, rfl⟩, by decide, ⟨_, rfl⟩, _, rfl⟩

/-- A state in the middle of a run that meets every invariant, and steps: the tree and the codes of AAABBC,
and BUILD pending. -/
def midRun : State :=
  { withInput treeABC textABC with
    ct := codesABC, obuf := ⟨1, [(0, 0x1F), (1, 0x00)]⟩
    outValid := true, outBytes := 2, outBits := 9
    busy := true, pending := 3, lastOp := 3 }

theorem witness_invariants :
    RegistersOk midRun ∧ TreeOk midRun ∧ CodesOk midRun.ct ∧ OutputOk midRun ∧
      ∃ t, step midRun = .next t where
  left :=
    { ibuf := by decide, obuf := by decide, node := by decide
      ibufAddr := by decide, obufAddr := by decide
      errCode := by decide, errRange := by decide, noError := by decide, errSym := by decide
      running := by decide, nnodes := by decide }
  right := ⟨fun _ => witness_TreeOf, witness_CodesOk,
    { absent := by decide, bytes := by decide, fits := by decide }, _, rfl⟩

end Sys2Proof.Tests
end

/-! PROOFS, 00_scope.md: what no instruction touches, the events still to come and the parameters. -/

namespace Sys2Proof.Machine

/-- `t` has the events still to come and the parameters of `s`: what every instruction keeps
(notes/assumptions/3.md, 4.md). -/
structure SameRun (s t : State) : Prop where
  events : t.events = s.events
  params : t.params = s.params

theorem SameRun.refl (s : State) : SameRun s s := ⟨rfl, rfl⟩

theorem SameRun.trans {s t u : State} (hst : SameRun s t) (htu : SameRun t u) :
    SameRun s u :=
  ⟨htu.events.trans hst.events, htu.params.trans hst.params⟩

/-- The outcome is a next state of the same run, never a fault or a refusal. -/
def NextInRun (s : State) (o : Out) : Prop := ∃ t, o = .next t ∧ SameRun s t

theorem nextInRun_next {s t : State} (h : SameRun s t) : NextInRun s (.next t) := ⟨t, rfl, h⟩

/-! ## Transactions -/

theorem respond_sameRun {s t : State} (h : SameRun s t) (r : Response) : SameRun s (t.respond r) :=
  ⟨h.events, h.params⟩

theorem w1c_sameRun (s : State) (v : Word) : SameRun s (s.w1c v) := ⟨by simp, by simp⟩

theorem stepIbufAddr_sameRun (s : State) : SameRun s s.stepIbufAddr := ⟨rfl, rfl⟩

theorem stepObufAddr_sameRun (s : State) : SameRun s s.stepObufAddr := ⟨rfl, rfl⟩

theorem readExact_nextInRun (s : State) (v : Word) : NextInRun s (readExact s v) :=
  nextInRun_next (respond_sameRun (.refl s) _)

theorem readUnlessBusy_nextInRun {s after : State} (h : SameRun s after) (v : Word) :
    NextInRun s (readUnlessBusy s v after) := by
  cases hb : s.busy with
  | false =>
    rw [readUnlessBusy_idle hb]
    exact nextInRun_next (respond_sameRun h _)
  | true =>
    rw [readUnlessBusy_busy hb]
    exact nextInRun_next ⟨rfl, rfl⟩

theorem execRdStatus_nextInRun (s : State) : NextInRun s (execRdStatus s) := by
  unfold execRdStatus
  split
  · exact nextInRun_next ⟨rfl, rfl⟩
  · exact readExact_nextInRun s _

theorem writeTaken_nextInRun {s after : State} (h : SameRun s after) :
    NextInRun s (writeTaken after) :=
  nextInRun_next (respond_sameRun h _)

theorem writeUnlessBusy_nextInRun {s after : State} (h : SameRun s after) :
    NextInRun s (writeUnlessBusy s after) := by
  cases hb : s.busy with
  | false =>
    rw [writeUnlessBusy_idle hb]
    exact nextInRun_next (respond_sameRun h _)
  | true =>
    rw [writeUnlessBusy_busy hb]
    exact nextInRun_next ⟨rfl, rfl⟩

/-! ## Commands -/

theorem stageCount_sameRun (s : State) : SameRun s (stageCount s).1 := by
  obtain ⟨-, h⟩ | ⟨-, h⟩ := stageCount_cases s <;>
    (rw [h]; exact ⟨rfl, rfl⟩)

theorem stageBuild_sameRun (s : State) : SameRun s (stageBuild s).1 := by
  obtain ⟨-, h⟩ | ⟨_, -, -, h⟩ | ⟨_, -, -, h⟩ := stageBuild_cases s <;>
    (rw [h]; exact ⟨rfl, rfl⟩)

theorem stageGen_sameRun (s : State) : SameRun s (stageGen s).1 := by
  obtain ⟨-, h⟩ | ⟨-, h⟩ := stageGen_cases s <;>
    (rw [h]; exact ⟨rfl, rfl⟩)

theorem stagePack_sameRun (s : State) : SameRun s (stagePack s).1 := by
  obtain ⟨-, h⟩ | ⟨_, -, -, h⟩ | ⟨_, -, -, h⟩ := stagePack_cases s <;>
    (rw [h]; exact ⟨rfl, rfl⟩)

/-- ENCODE keeps what its stages keep (46_encode_pipeline.md R300), however far they went. -/
theorem stageEncode_sameRun (s : State) : SameRun s (stageEncode s).1 := by
  have hcount {s₁ r} (h : stageCount s = (s₁, r)) : SameRun s s₁ := by
    simpa [h] using stageCount_sameRun s
  have hbuild {s₁ s₂ r} (h : stageBuild s₁ = (s₂, r)) : SameRun s₁ s₂ := by
    simpa [h] using stageBuild_sameRun s₁
  have hgen {s₂ s₃ r} (h : stageGen s₂ = (s₃, r)) : SameRun s₂ s₃ := by
    simpa [h] using stageGen_sameRun s₂
  obtain ⟨s₁, e, h₁, h⟩ | ⟨s₁, h₁, -, h⟩ | ⟨s₁, s₂, e, h₁, -, h₂, h⟩ |
    ⟨s₁, s₂, s₃, e, h₁, -, h₂, h₃, h⟩ | ⟨s₁, s₂, s₃, h₁, -, h₂, h₃, h⟩ := stageEncode_cases s <;>
    rw [h]
  · exact hcount h₁
  · exact (hcount h₁).trans ⟨rfl, rfl⟩
  · exact ((hcount h₁).trans (hbuild h₂)).trans ⟨rfl, rfl⟩
  · exact (((hcount h₁).trans (hbuild h₂)).trans (hgen h₃)).trans ⟨rfl, rfl⟩
  · exact (((hcount h₁).trans (hbuild h₂)).trans (hgen h₃)).trans (stagePack_sameRun s₃)

theorem complete_sameRun {s : State} {r : Stage} (h : SameRun s r.1) : SameRun s (complete r) := by
  obtain ⟨t, _ | e⟩ := r <;> exact h.trans ⟨rfl, rfl⟩

theorem complete_nextInRun {s : State} {r : Stage} (h : SameRun s r.1) :
    NextInRun s (.next (complete r)) :=
  nextInRun_next (complete_sameRun h)

/-! ## Every instruction, and the agents' steps -/

/-- Every instruction has a next state, with the same events still to come and the same parameters
(60_exceptions.md R325, R328). -/
theorem exec_nextInRun (i : Instr) (s : State) : NextInRun s (exec i s) := by
  cases i with
  | nop | clrf | srst | illegal08 | illegal10 | illegal20 | illegal40 | illegal80 =>
    exact complete_nextInRun ⟨rfl, rfl⟩
  | count => exact complete_nextInRun (stageCount_sameRun s)
  | build => exact complete_nextInRun (stageBuild_sameRun s)
  | gen => exact complete_nextInRun (stageGen_sameRun s)
  | pack => exact complete_nextInRun (stagePack_sameRun s)
  | encode => exact complete_nextInRun (stageEncode_sameRun s)
  | rdId | rdVersion | rdCapIbuf | rdCapObuf | rdCmd | rdIrqEn | rdErrCode | rdErrInfo | rdErrSym
  | rdInLen | rdIbufAddr | rdObufAddr | rdFreqSel | rdCtSel | rdRsvd5c | rdRsvd80 =>
    exact readExact_nextInRun s _
  | rdStatus => exact execRdStatus_nextInRun s
  | rdIbufData => exact readUnlessBusy_nextInRun (stepIbufAddr_sameRun s) _
  | rdObufData => exact readUnlessBusy_nextInRun (stepObufAddr_sameRun s) _
  | rdOutBytes | rdOutBits | rdFreqData | rdNsym | rdCtLen | rdCtMaxlen | rdCtWord0 | rdCtWord1
  | rdCtWord2 | rdCtWord3 | rdCtWord4 | rdCtWord5 | rdCtWord6 | rdCtWord7 =>
    exact readUnlessBusy_nextInRun (.refl s) _
  | wrStatus v => exact writeTaken_nextInRun (w1c_sameRun s v)
  | wrIrqEn | wrId | wrVersion | wrCapIbuf | wrCapObuf | wrErrCode | wrErrInfo | wrErrSym
  | wrObufData | wrOutBytes | wrOutBits | wrNsym | wrCtLen | wrCtMaxlen | wrCtWord0 | wrCtWord1
  | wrCtWord2 | wrCtWord3 | wrCtWord4 | wrCtWord5 | wrCtWord6 | wrCtWord7 | wrRsvd5c | wrRsvd80 =>
    exact writeTaken_nextInRun ⟨rfl, rfl⟩
  | wrCmd | wrInLen | wrIbufAddr | wrIbufData | wrObufAddr | wrFreqSel | wrFreqData | wrCtSel =>
    exact writeUnlessBusy_nextInRun ⟨rfl, rfl⟩

theorem exec_sameRun {i : Instr} {s t : State} (h : exec i s = .next t) : SameRun s t := by
  obtain ⟨t', ht', hrun⟩ := exec_nextInRun i s
  cases h.symm.trans ht'
  exact hrun

theorem hostStep_sameRun {x : BusTxn} {s t : State} (h : hostStep x s = .next t) : SameRun s t := by
  obtain ⟨i, -, hi⟩ | ⟨r, -, rfl⟩ := hostStep_cases h
  · exact exec_sameRun hi
  · exact respond_sameRun (.refl s) _

theorem engineStep_sameRun {s t : State} (h : engineStep s = .next t) : SameRun s t := by
  obtain ⟨-, i, -, hi⟩ | ⟨-, r, -, rfl⟩ | ⟨-, rfl⟩ := engineStep_cases h
  · exact exec_sameRun hi
  · exact complete_sameRun ⟨rfl, rfl⟩
  · exact .refl _

/-- Hardware reset keeps the events still to come and the parameters (notes/assumptions/7.md). -/
theorem resetStep_sameRun (s : State) : SameRun s (resetStep s) := ⟨rfl, rfl⟩

/-- A step belongs to the run of the state without its first event. -/
theorem step_sameRun {s t : State} (h : step s = .next t) :
    SameRun (s.withEvents s.events.tail) t := by
  obtain ⟨x, -, hx⟩ | ⟨-, hc⟩ | ⟨-, rfl⟩ := step_cases h
  · exact hostStep_sameRun hx
  · exact engineStep_sameRun hc
  · exact resetStep_sameRun _

/-- Settles O7: the step's event is taken off the list first (`nextEvent`), and neither agent's step nor
hardware reset then touches the list or the parameters. -/
theorem stepTakesOneEvent : Obligations.StepTakesOneEvent := by
  intro s t h
  obtain ⟨hevents, hparams⟩ := step_sameRun h
  exact ⟨hevents, hparams⟩

end Sys2Proof.Machine

/-! PROOFS, 10_state.md: what one instruction makes of the state, and what that says of the state's invariants. -/

namespace Sys2Proof.Machine

/-! ## What an instruction can do -/

/-- The `Execute` of each CMD row (41_command_control.md R181 to R187). -/
inductive CommandStage (s : State) : Instr → Stage → Prop where
  | nop : CommandStage s .nop (stageNop s)
  | clrf : CommandStage s .clrf (stageClrf s)
  | count : CommandStage s .count (stageCount s)
  | build : CommandStage s .build (stageBuild s)
  | gen : CommandStage s .gen (stageGen s)
  | pack : CommandStage s .pack (stagePack s)
  | encode : CommandStage s .encode (stageEncode s)
  | srst : CommandStage s .srst (stageSrst s)
  | illegal08 (low : BitVec 3) : CommandStage s (.illegal08 low) (stageIllegal s)
  | illegal10 (low : BitVec 4) : CommandStage s (.illegal10 low) (stageIllegal s)
  | illegal20 (low : BitVec 5) : CommandStage s (.illegal20 low) (stageIllegal s)
  | illegal40 (low : BitVec 6) : CommandStage s (.illegal40 low) (stageIllegal s)
  | illegal80 (low : BitVec 7) : CommandStage s (.illegal80 low) (stageIllegal s)

/-- Everything `exec i s` can leave: a command's completion, a transaction that changes only the response
and the count of draws, a rejected write, or the one update of its register. -/
inductive Effect (s : State) : Instr → State → Prop where
  | command {i : Instr} {r : Stage} (h : CommandStage s i r) : Effect s i (complete r)
  | quiet (i : Instr) (n : Nat) (r : Response) : Effect s i ((s.drew n).respond r)
  | rejected (i : Instr) : Effect s i (s.violate.respond (.write false))
  | rdIbufData (r : Response) : Effect s .rdIbufData (s.stepIbufAddr.respond r)
  | rdObufData (r : Response) : Effect s .rdObufData (s.stepObufAddr.respond r)
  | wrStatus (v : Word) (r : Response) : Effect s (.wrStatus v) ((s.w1c v).respond r)
  | wrIrqEn (v : Word) (r : Response) :
      Effect s (.wrIrqEn v) (State.respond { s with irqEn := irqField v } r)
  | wrCmd (w : Word) (r : Response) (idle : s.busy = false) :
      Effect s (.wrCmd w) ((s.accept w).respond r)
  | wrInLen (v : Word) (r : Response) :
      Effect s (.wrInLen v) (State.respond { s with inLen := v } r)
  | wrIbufAddr (v : Word) (r : Response) :
      Effect s (.wrIbufAddr v) (State.respond { s with ibufAddr := addrField s.params.ibufAw v } r)
  | wrIbufData (v : Word) (r : Response) :
      Effect s (.wrIbufData v) (State.respond
        { s.stepIbufAddr with ibuf := s.ibuf.write s.ibufAddr.toNat (lowByte v) } r)
  | wrObufAddr (v : Word) (r : Response) :
      Effect s (.wrObufAddr v) (State.respond { s with obufAddr := addrField s.params.obufAw v } r)
  | wrFreqSel (v : Word) (r : Response) :
      Effect s (.wrFreqSel v) (State.respond { s with freqSel := lowByte v } r)
  | wrFreqData (v : Word) (r : Response) :
      Effect s (.wrFreqData v) (State.respond
        { s with freq := setEntry s.freq s.freqSel v, treeValid := false } r)
  | wrCtSel (v : Word) (r : Response) :
      Effect s (.wrCtSel v) (State.respond { s with ctSel := lowByte v } r)

/-- A command's meaning is the completion of its stage (41_command_control.md R182). -/
theorem CommandStage.exec_eq {s : State} {i : Instr} {r : Stage} (h : CommandStage s i r) :
    exec i s = .next (complete r) := by
  cases h <;> rfl

theorem CommandStage.effect {s t : State} {i : Instr} {r : Stage} (h : CommandStage s i r)
    (ht : exec i s = .next t) : Effect s i t := by
  cases h.exec_eq.symm.trans ht
  exact .command h

theorem readExact_effect {s t : State} {v : Word} (i : Instr) (ht : readExact s v = .next t) :
    Effect s i t := by
  cases ht
  exact .quiet i 0 _

theorem readUnlessBusy_effect {s after t : State} {v : Word} {i : Instr}
    (hidle : ∀ r, Effect s i (after.respond r)) (ht : readUnlessBusy s v after = .next t) :
    Effect s i t := by
  unfold readUnlessBusy at ht
  split at ht <;> cases ht
  · exact .quiet i 1 _
  · exact hidle _

theorem execRdStatus_effect {s t : State} (ht : execRdStatus s = .next t) :
    Effect s .rdStatus t := by
  unfold execRdStatus at ht
  split at ht <;> cases ht
  · exact .quiet _ 1 _
  · exact .quiet _ 0 _

theorem writeTaken_effect {s after t : State} {i : Instr}
    (htaken : ∀ r, Effect s i (after.respond r)) (ht : writeTaken after = .next t) :
    Effect s i t := by
  cases ht
  exact htaken _

theorem writeUnlessBusy_effect {s after t : State} {i : Instr}
    (hidle : s.busy = false → ∀ r, Effect s i (after.respond r))
    (ht : writeUnlessBusy s after = .next t) : Effect s i t := by
  unfold writeUnlessBusy at ht
  split at ht
  · cases ht
    exact .rejected i
  · exact writeTaken_effect (hidle (by simpa using ‹¬ s.busy = true›)) ht

/-- Every instruction has one of the effects. -/
theorem exec_effect {i : Instr} {s t : State} (ht : exec i s = .next t) : Effect s i t := by
  cases i with
  | nop => exact CommandStage.nop.effect ht
  | clrf => exact CommandStage.clrf.effect ht
  | count => exact CommandStage.count.effect ht
  | build => exact CommandStage.build.effect ht
  | gen => exact CommandStage.gen.effect ht
  | pack => exact CommandStage.pack.effect ht
  | encode => exact CommandStage.encode.effect ht
  | srst => exact CommandStage.srst.effect ht
  | illegal08 low => exact (CommandStage.illegal08 low).effect ht
  | illegal10 low => exact (CommandStage.illegal10 low).effect ht
  | illegal20 low => exact (CommandStage.illegal20 low).effect ht
  | illegal40 low => exact (CommandStage.illegal40 low).effect ht
  | illegal80 low => exact (CommandStage.illegal80 low).effect ht
  | rdId | rdVersion | rdCapIbuf | rdCapObuf | rdCmd | rdIrqEn | rdErrCode | rdErrInfo | rdErrSym
  | rdInLen | rdIbufAddr | rdObufAddr | rdFreqSel | rdCtSel | rdRsvd5c | rdRsvd80 =>
    exact readExact_effect _ ht
  | rdStatus => exact execRdStatus_effect ht
  | rdIbufData => exact readUnlessBusy_effect .rdIbufData ht
  | rdObufData => exact readUnlessBusy_effect .rdObufData ht
  | rdOutBytes | rdOutBits | rdFreqData | rdNsym | rdCtLen | rdCtMaxlen | rdCtWord0 | rdCtWord1
  | rdCtWord2 | rdCtWord3 | rdCtWord4 | rdCtWord5 | rdCtWord6 | rdCtWord7 =>
    exact readUnlessBusy_effect (.quiet _ 0) ht
  | wrStatus v => exact writeTaken_effect (.wrStatus v) ht
  | wrIrqEn v => exact writeTaken_effect (.wrIrqEn v) ht
  | wrId | wrVersion | wrCapIbuf | wrCapObuf | wrErrCode | wrErrInfo | wrErrSym
  | wrObufData | wrOutBytes | wrOutBits | wrNsym | wrCtLen | wrCtMaxlen | wrCtWord0 | wrCtWord1
  | wrCtWord2 | wrCtWord3 | wrCtWord4 | wrCtWord5 | wrCtWord6 | wrCtWord7 | wrRsvd5c | wrRsvd80 =>
    exact writeTaken_effect (.quiet _ 0) ht
  | wrCmd w => exact writeUnlessBusy_effect (fun idle r => .wrCmd w r idle) ht
  | wrInLen v => exact writeUnlessBusy_effect (fun _ => .wrInLen v) ht
  | wrIbufAddr v => exact writeUnlessBusy_effect (fun _ => .wrIbufAddr v) ht
  | wrIbufData v => exact writeUnlessBusy_effect (fun _ => .wrIbufData v) ht
  | wrObufAddr v => exact writeUnlessBusy_effect (fun _ => .wrObufAddr v) ht
  | wrFreqSel v => exact writeUnlessBusy_effect (fun _ => .wrFreqSel v) ht
  | wrFreqData v => exact writeUnlessBusy_effect (fun _ => .wrFreqData v) ht
  | wrCtSel v => exact writeUnlessBusy_effect (fun _ => .wrCtSel v) ht

/-! ## What each stage leaves -/

/-- COUNT leaves everything but FREQ and TREE_VALID (42_frequency_counter.md R202). -/
@[simp] theorem stageCount_same (s : State) :
    (stageCount s).1.ibuf = s.ibuf ∧ (stageCount s).1.obuf = s.obuf ∧
    (stageCount s).1.node = s.node ∧ (stageCount s).1.root = s.root ∧
    (stageCount s).1.nnodes = s.nnodes ∧ (stageCount s).1.ct = s.ct ∧
    (stageCount s).1.outValid = s.outValid ∧ (stageCount s).1.outBytes = s.outBytes ∧
    (stageCount s).1.outBits = s.outBits ∧ (stageCount s).1.busy = s.busy ∧
    (stageCount s).1.pending = s.pending ∧ (stageCount s).1.done = s.done ∧
    (stageCount s).1.err = s.err ∧ (stageCount s).1.busyViol = s.busyViol ∧
    (stageCount s).1.lastOp = s.lastOp ∧ (stageCount s).1.errCode = s.errCode ∧
    (stageCount s).1.errInfo = s.errInfo ∧ (stageCount s).1.errSym = s.errSym ∧
    (stageCount s).1.irqEn = s.irqEn ∧ (stageCount s).1.inLen = s.inLen ∧
    (stageCount s).1.ibufAddr = s.ibufAddr ∧ (stageCount s).1.obufAddr = s.obufAddr ∧
    (stageCount s).1.params = s.params := by
  obtain ⟨-, h⟩ | ⟨-, h⟩ := stageCount_cases s <;> simp [h]

/-- BUILD leaves everything but NODE, ROOT, NNODES and TREE_VALID (43_tree_builder.md R224). -/
@[simp] theorem stageBuild_same (s : State) :
    (stageBuild s).1.ibuf = s.ibuf ∧ (stageBuild s).1.obuf = s.obuf ∧
    (stageBuild s).1.freq = s.freq ∧ (stageBuild s).1.ct = s.ct ∧
    (stageBuild s).1.outValid = s.outValid ∧ (stageBuild s).1.outBytes = s.outBytes ∧
    (stageBuild s).1.outBits = s.outBits ∧ (stageBuild s).1.busy = s.busy ∧
    (stageBuild s).1.pending = s.pending ∧ (stageBuild s).1.done = s.done ∧
    (stageBuild s).1.err = s.err ∧ (stageBuild s).1.busyViol = s.busyViol ∧
    (stageBuild s).1.lastOp = s.lastOp ∧ (stageBuild s).1.errCode = s.errCode ∧
    (stageBuild s).1.errInfo = s.errInfo ∧ (stageBuild s).1.errSym = s.errSym ∧
    (stageBuild s).1.irqEn = s.irqEn ∧ (stageBuild s).1.inLen = s.inLen ∧
    (stageBuild s).1.ibufAddr = s.ibufAddr ∧ (stageBuild s).1.obufAddr = s.obufAddr ∧
    (stageBuild s).1.params = s.params := by
  obtain ⟨-, h⟩ | ⟨_, -, -, h⟩ | ⟨_, -, -, h⟩ := stageBuild_cases s <;> simp [h]

/-- GEN leaves everything but CT (44_code_table_generator.md R252). -/
@[simp] theorem stageGen_same (s : State) :
    (stageGen s).1.ibuf = s.ibuf ∧ (stageGen s).1.obuf = s.obuf ∧ (stageGen s).1.freq = s.freq ∧
    (stageGen s).1.node = s.node ∧ (stageGen s).1.root = s.root ∧ (stageGen s).1.nnodes = s.nnodes ∧
    (stageGen s).1.treeValid = s.treeValid ∧ (stageGen s).1.outValid = s.outValid ∧
    (stageGen s).1.outBytes = s.outBytes ∧ (stageGen s).1.outBits = s.outBits ∧
    (stageGen s).1.busy = s.busy ∧ (stageGen s).1.pending = s.pending ∧
    (stageGen s).1.done = s.done ∧ (stageGen s).1.err = s.err ∧
    (stageGen s).1.busyViol = s.busyViol ∧ (stageGen s).1.lastOp = s.lastOp ∧
    (stageGen s).1.errCode = s.errCode ∧ (stageGen s).1.errInfo = s.errInfo ∧
    (stageGen s).1.errSym = s.errSym ∧ (stageGen s).1.irqEn = s.irqEn ∧
    (stageGen s).1.inLen = s.inLen ∧ (stageGen s).1.ibufAddr = s.ibufAddr ∧
    (stageGen s).1.obufAddr = s.obufAddr ∧ (stageGen s).1.params = s.params := by
  obtain ⟨-, h⟩ | ⟨-, h⟩ := stageGen_cases s <;> simp [h]

/-- PACK leaves everything but OBUF and the output registers (45_bit_packer.md R273). -/
@[simp] theorem stagePack_same (s : State) :
    (stagePack s).1.ibuf = s.ibuf ∧ (stagePack s).1.freq = s.freq ∧ (stagePack s).1.node = s.node ∧
    (stagePack s).1.root = s.root ∧ (stagePack s).1.nnodes = s.nnodes ∧
    (stagePack s).1.treeValid = s.treeValid ∧ (stagePack s).1.ct = s.ct ∧
    (stagePack s).1.busy = s.busy ∧ (stagePack s).1.pending = s.pending ∧
    (stagePack s).1.done = s.done ∧ (stagePack s).1.err = s.err ∧
    (stagePack s).1.busyViol = s.busyViol ∧ (stagePack s).1.lastOp = s.lastOp ∧
    (stagePack s).1.errCode = s.errCode ∧ (stagePack s).1.errInfo = s.errInfo ∧
    (stagePack s).1.errSym = s.errSym ∧ (stagePack s).1.irqEn = s.irqEn ∧
    (stagePack s).1.inLen = s.inLen ∧ (stagePack s).1.ibufAddr = s.ibufAddr ∧
    (stagePack s).1.obufAddr = s.obufAddr ∧ (stagePack s).1.params = s.params := by
  obtain ⟨-, h⟩ | ⟨_, -, -, h⟩ | ⟨_, -, -, h⟩ := stagePack_cases s <;> simp [h]

/-! ## How a property is kept -/

/-- The fields a completion leaves as its stage has them (41_command_control.md R182). -/
@[simp] theorem complete_same (r : Stage) :
    (complete r).ibuf = r.1.ibuf ∧ (complete r).obuf = r.1.obuf ∧ (complete r).freq = r.1.freq ∧
    (complete r).node = r.1.node ∧ (complete r).root = r.1.root ∧
    (complete r).nnodes = r.1.nnodes ∧ (complete r).treeValid = r.1.treeValid ∧
    (complete r).ct = r.1.ct ∧ (complete r).outValid = r.1.outValid ∧
    (complete r).outBytes = r.1.outBytes ∧ (complete r).outBits = r.1.outBits ∧
    (complete r).pending = r.1.pending ∧ (complete r).busyViol = r.1.busyViol ∧
    (complete r).lastOp = r.1.lastOp ∧ (complete r).irqEn = r.1.irqEn ∧
    (complete r).ibufAddr = r.1.ibufAddr ∧ (complete r).obufAddr = r.1.obufAddr ∧
    (complete r).params = r.1.params := by
  obtain ⟨s, _ | e⟩ := r <;> simp

/-- What every effect and hardware reset keep, and what does not look at the events, every step keeps. A
bus error and the completion of a word no row matches are effects too. -/
theorem step_keeps {P : State → Prop} (hevents : ∀ s l, P s → P (s.withEvents l))
    (heffect : ∀ s i t, Effect s i t → P s → P t) (hreset : ∀ p d l, P (State.afterReset p d l))
    {s t : State} (hs : P s) (ht : step s = .next t) : P t := by
  have hs' : P (s.withEvents s.events.tail) := hevents s _ hs
  obtain ⟨x, -, hx⟩ | ⟨-, hc⟩ | ⟨-, rfl⟩ := step_cases ht
  · obtain ⟨i, -, hi⟩ | ⟨_, -, rfl⟩ := hostStep_cases hx
    · exact heffect _ i _ (exec_effect hi) hs'
    · exact heffect _ .nop _ (.quiet _ 0 _) hs'
  · obtain ⟨-, i, -, hi⟩ | ⟨-, _, -, rfl⟩ | ⟨-, rfl⟩ := engineStep_cases hc
    · exact heffect _ i _ (exec_effect hi) hs'
    · exact heffect _ _ _ (.command (.illegal08 0)) hs'
    · exact hs'
  · exact hreset _ _ _

/-- ENCODE keeps what its stages and its two endings keep (46_encode_pipeline.md R300). -/
theorem stageEncode_keeps {P : State → Prop} (hcount : ∀ s, P s → P (stageCount s).1)
    (hbuild : ∀ s, P s → P (stageBuild s).1) (hgen : ∀ s, P s → P (stageGen s).1)
    (hpack : ∀ s, P s → P (stagePack s).1) (hclear : ∀ s, P s → P s.clearOut)
    (hempty : ∀ s, P s → P s.emptyResult) (s : State) (hs : P s) : P (stageEncode s).1 := by
  have count {s₁ r} (h : stageCount s = (s₁, r)) : P s₁ := by simpa [h] using hcount s hs
  have build {s₁ s₂ r} (h : stageBuild s₁ = (s₂, r)) (h₁ : P s₁) : P s₂ := by
    simpa [h] using hbuild s₁ h₁
  have gen {s₂ s₃ r} (h : stageGen s₂ = (s₃, r)) (h₂ : P s₂) : P s₃ := by
    simpa [h] using hgen s₂ h₂
  obtain ⟨s₁, e, h₁, h⟩ | ⟨s₁, h₁, -, h⟩ | ⟨s₁, s₂, e, h₁, -, h₂, h⟩ |
    ⟨s₁, s₂, s₃, e, h₁, -, h₂, h₃, h⟩ | ⟨s₁, s₂, s₃, h₁, -, h₂, h₃, h⟩ := stageEncode_cases s <;>
    rw [h]
  · exact count h₁
  · exact hempty _ (count h₁)
  · exact hclear _ (build h₂ (count h₁))
  · exact hclear _ (gen h₃ (build h₂ (count h₁)))
  · exact hpack _ (gen h₃ (build h₂ (count h₁)))

end Sys2Proof.Machine

/-! PROOFS, 10_state.md R56: in the code table GEN makes, on any NODE contents, no code begins another. -/

namespace Sys2Proof.Machine

/-! ## Paths of NODE (44_code_table_generator.md R251) -/

/-- One more bit of a path that leads to an internal node leads to its child. -/
theorem follow_concat {node : Memory Node} {x : Nat} {p : List Bool} {w : Word}
    {l r : BitVec 9} (h : follow node x p = some (.internal w l r)) (b : Bool) :
    follow node x (p ++ [b]) = some (node.readNode (if b then r.toNat else l.toNat)) := by
  induction p generalizing x with
  | nil =>
    have hx : node.readNode x = .internal w l r := by simpa [follow] using h
    simp [follow, hx]
  | cons c p ih =>
    cases hx : node.readNode x with
    | leaf sym w' => simp [follow, hx] at h
    | internal w' l' r' => simpa [follow, hx] using ih (by simpa [follow, hx] using h)

/-- No path goes on beyond a leaf. -/
theorem follow_beyond_leaf {node : Memory Node} {x : Nat} {p q : List Bool} {c : Byte} {w : Word}
    (h : follow node x p = some (.leaf c w)) (hq : q ≠ []) : follow node x (p ++ q) = none := by
  induction p generalizing x with
  | nil =>
    have hx : node.readNode x = .leaf c w := by simpa [follow] using h
    cases q with
    | nil => exact absurd rfl hq
    | cons b q => simp [follow, hx]
  | cons b p ih =>
    cases hx : node.readNode x with
    | leaf sym w' => simp [follow, hx] at h
    | internal w' l r => simpa [follow, hx] using ih (by simpa [follow, hx] using h)

/-! ## The entries GEN records -/

/-- The entry is empty, or it is a path of 1 to 255 bits from `root` to a leaf of the symbol. -/
def RecordsLeaf (node : Memory Node) (root : Nat) (c : Byte) (e : CodeEntry) : Prop :=
  e = .invalid ∨ ∃ p w, e = .ofPath p ∧ 1 ≤ p.length ∧ p.length ≤ 255 ∧
    follow node root p = some (.leaf c w)

/-- Every entry of the table records a leaf of its own symbol. -/
def RecordsLeaves (node : Memory Node) (root : Nat) (ct : Vector CodeEntry 256) : Prop :=
  ∀ c, RecordsLeaf node root c (entryAt ct c)

theorem emptyCodes_recordsLeaves (node : Memory Node) (root : Nat) :
    RecordsLeaves node root emptyCodes :=
  fun c => .inl (entryAt_emptyCodes c)

theorem RecordsLeaves.setEntry {node : Memory Node} {root : Nat} {ct : Vector CodeEntry 256}
    (h : RecordsLeaves node root ct) {c : Byte} {e : CodeEntry}
    (he : RecordsLeaf node root c e) : RecordsLeaves node root (setEntry ct c e) := by
  intro d
  rw [entryAt_setEntry]
  split
  · exact ‹c = d› ▸ he
  · exact h d

/-- `Walk` from a node that `p` leads to records leaves only; `fuel` bounds the paths' lengths. -/
theorem walk_recordsLeaves {node : Memory Node} {root fuel : Nat} {x : BitVec 9} {p : List Bool}
    {ct : Vector CodeEntry 256} (hct : RecordsLeaves node root ct)
    (hp : follow node root p = some (node.readNode x.toNat)) (hlen : p.length + fuel ≤ 256)
    (hleaf : ∀ c w, node.readNode x.toNat = .leaf c w → 1 ≤ p.length) :
    RecordsLeaves node root (walk node fuel x p ct) := by
  induction fuel generalizing x p ct with
  | zero => exact hct
  | succ fuel ih =>
    have child {w l r} (hx : node.readNode x.toNat = .internal w l r) (b : Bool) (y : BitVec 9)
        (hy : y = if b then r else l) {ct} (hct : RecordsLeaves node root ct) :
        RecordsLeaves node root (walk node fuel y (p ++ [b]) ct) := by
      refine ih hct ?_ (by simp; omega) (by simp)
      rw [follow_concat (hp.trans (congrArg some hx)) b]
      cases b <;> simp [hy]
    unfold walk
    cases hx : node.readNode x.toNat with
    | leaf c w =>
      exact hct.setEntry (.inr ⟨p, w, rfl, hleaf c w hx, by omega, hx ▸ hp⟩)
    | internal w l r => exact child hx true r rfl (child hx false l rfl hct)

/-! ## The code table -/

theorem emptyCodes_codesOk : CodesOk emptyCodes where
  invalid c _ := entryAt_emptyCodes c
  shape c h := by simp [CodeEntry.invalid] at h
  prefixFree c _ h := by simp [CodeEntry.invalid] at h

/-- Two recorded paths end at the leaves of two symbols, and a path ends at its first leaf: so neither
goes on from the other (44_code_table_generator.md R257). -/
theorem RecordsLeaves.codesOk {node : Memory Node} {root : Nat} {ct : Vector CodeEntry 256}
    (h : RecordsLeaves node root ct) : CodesOk ct where
  invalid c hc := by
    obtain he | ⟨p, w, he, -⟩ := h c
    · exact he
    · simp [he, CodeEntry.ofPath] at hc
  shape c hc := by
    obtain he | ⟨p, w, he, hpos, hle, -⟩ := h c
    · simp [he, CodeEntry.invalid] at hc
    · have hlen : p.length % 256 = p.length := Nat.mod_eq_of_lt (by omega)
      simp [he, CodeEntry.ofPath, hlen]
      omega
  prefixFree c d hc hd hne := by
    obtain he | ⟨p, w, he, -, -, hp⟩ := h c
    · simp [he, CodeEntry.invalid] at hc
    obtain hf | ⟨q, w', hf, -, -, hq⟩ := h d
    · simp [hf, CodeEntry.invalid] at hd
    rw [he, hf]
    rintro ⟨b, hb : p ++ b = q⟩
    have hnil : b = [] := by
      by_contra hb'
      simp [← hb, follow_beyond_leaf hp hb'] at hq
    subst hnil hb
    rw [List.append_nil, hp] at hq
    cases hq
    exact hne rfl

/-- The single leaf's code "0" (44_code_table_generator.md R253) has no other code beside it. -/
theorem singleCode_codesOk (c : Byte) : CodesOk (setEntry emptyCodes c (.ofPath [false])) where
  invalid d hd := by
    rw [entryAt_setEntry] at hd ⊢
    split at hd <;> simp_all [CodeEntry.ofPath]
  shape d hd := by
    rw [entryAt_setEntry] at hd ⊢
    split at hd <;> simp_all [CodeEntry.ofPath, CodeEntry.invalid]
  prefixFree d e hd he hne := by
    rw [entryAt_setEntry] at hd he
    split at hd <;> split at he <;> simp_all [CodeEntry.invalid]

/-- GEN's code table is sound, whatever NODE and ROOT hold. -/
theorem treeCodes_codesOk (node : Memory Node) (root : BitVec 9) :
    CodesOk (treeCodes node root) := by
  unfold treeCodes
  cases hx : node.readNode root.toNat with
  | leaf c w => exact singleCode_codesOk c
  | internal w l r =>
    have hleaf : ∀ c w, node.readNode root.toNat = .leaf c w → 1 ≤ ([] : List Bool).length := by
      simp [hx]
    exact (walk_recordsLeaves (emptyCodes_recordsLeaves node root.toNat) rfl (Nat.le_refl _)
      hleaf).codesOk

theorem stageGen_codesOk (s : State) (h : CodesOk s.ct) : CodesOk (stageGen s).1.ct := by
  obtain ⟨-, hs⟩ | ⟨-, hs⟩ := stageGen_cases s <;> rw [hs]
  · exact h
  · exact treeCodes_codesOk s.node s.root

theorem stageEncode_codesOk (s : State) (h : CodesOk s.ct) : CodesOk (stageEncode s).1.ct :=
  stageEncode_keeps (P := fun s => CodesOk s.ct) (by simp) (by simp) stageGen_codesOk (by simp)
    (fun _ h => h) (fun _ _ => emptyCodes_codesOk) s h

theorem CommandStage.codesOk {s : State} {i : Instr} {r : Stage} (hr : CommandStage s i r)
    (h : CodesOk s.ct) : CodesOk r.1.ct := by
  cases hr with
  | gen => exact stageGen_codesOk s h
  | count | build | pack => simpa using h
  | encode => exact stageEncode_codesOk s h
  | srst => exact emptyCodes_codesOk
  | nop | clrf | illegal08 | illegal10 | illegal20 | illegal40 | illegal80 => exact h

theorem Effect.codesOk {s t : State} {i : Instr} (ht : Effect s i t) (h : CodesOk s.ct) :
    CodesOk t.ct := by
  cases ht with
  | command hr => exact by simpa using hr.codesOk h
  | wrStatus v r => simpa using h
  | _ => exact h

/-- Settles O59: only GEN (and ENCODE through it) makes codes, and it records paths to leaves. -/
theorem stepKeepsCodesPrefixFree : Obligations.StepKeepsCodesPrefixFree :=
  fun _ _ => step_keeps (P := fun s => CodesOk s.ct) (fun _ _ h => h)
    (fun _ _ _ ht h => ht.codesOk h) (fun _ _ _ => emptyCodes_codesOk)

end Sys2Proof.Machine

/-! PROOFS, 10_state.md R63: BUILD makes a tree over FREQ, by an invariant of the merge loop. -/

namespace Sys2Proof.Machine

/-! ## The priority queue (43_tree_builder.md R221, R222) -/

theorem minKey_mem (node : Memory Node) {pq : List Nat} (h : pq ≠ []) : minKey node pq ∈ pq := by
  cases pq with
  | nil => exact absurd rfl h
  | cons x xs =>
    have hfold (ys : List Nat) (m : Nat) (hm : m ∈ x :: xs) (hys : ∀ y ∈ ys, y ∈ x :: xs) :
        ys.foldl (fun m y => if keyLt node y m then y else m) m ∈ x :: xs :=
      List.foldlRecOn ys _ hm fun m hm y hy => by
        split
        · exact hys y hy
        · exact hm
    exact hfold xs x List.mem_cons_self fun y hy => List.mem_cons_of_mem x hy

/-- `extractMin` takes a member and leaves the others. -/
theorem extractMin_perm (node : Memory Node) {pq : List Nat} (h : pq ≠ []) :
    pq.Perm ((extractMin node pq).1 :: (extractMin node pq).2) :=
  List.perm_cons_erase (minKey_mem node h)

/-- The merge state after `a` and `b` got a common parent of weight `w`, with `q` left in the queue. -/
def MergeState.joined (m : MergeState) (a b : Nat) (q : List Nat) (w : Nat) : MergeState where
  node := m.node.write m.idx (.internal (BitVec.ofNat 32 w) (BitVec.ofNat 9 a) (BitVec.ofNat 9 b))
  pq := q ++ [m.idx]
  idx := m.idx + 1

/-- `Merge()` joins two members of the queue, or their weights overflow (43_tree_builder.md R223). -/
theorem merge_cases {m : MergeState} (h : 2 ≤ m.pq.length) :
    ∃ a b q w, m.pq.Perm (a :: b :: q) ∧ w = weightAt m.node a + weightAt m.node b ∧
      (2 ^ 32 ≤ w ∧ merge m = .error m.idx ∨ w < 2 ^ 32 ∧ merge m = .ok (m.joined a b q w)) := by
  have h₁ := extractMin_perm m.node (pq := m.pq) (by rintro h'; simp [h'] at h)
  have h₂ := extractMin_perm m.node (pq := (extractMin m.node m.pq).2) (by
    rintro h'
    have hlen := h₁.length_eq
    simp [h'] at hlen
    omega)
  refine ⟨_, _, _, _, h₁.trans (h₂.cons _), rfl, ?_⟩
  by_cases hw : 2 ^ 32 ≤ weightAt m.node (extractMin m.node m.pq).1 +
      weightAt m.node (extractMin m.node (extractMin m.node m.pq).2).1
  · exact .inl ⟨hw, if_pos hw⟩
  · exact .inr ⟨Nat.lt_of_not_le hw, if_neg hw⟩

/-! ## The merge loop (43_tree_builder.md R224) -/

/-- The loop ends with at most one member left, when the fuel is enough, and keeps what `Merge` keeps. -/
theorem mergeAll_ok {P : MergeState → Prop}
    (hmerge : ∀ m m', P m → 2 ≤ m.pq.length → merge m = .ok m' → P m') {fuel : Nat}
    {m m' : MergeState} (hP : P m) (hfuel : m.pq.length ≤ fuel) (h : mergeAll fuel m = .ok m') :
    P m' ∧ m'.pq.length ≤ 1 := by
  induction fuel generalizing m with
  | zero =>
    cases h
    exact ⟨hP, by omega⟩
  | succ fuel ih =>
    unfold mergeAll at h
    split at h
    · rename_i hlen
      obtain ⟨a, b, q, w, hperm, -, ⟨-, he⟩ | ⟨-, he⟩⟩ := merge_cases hlen
      · simp [he] at h
      · rw [he] at h
        refine ih (hmerge m _ hP hlen he) ?_ h
        have := hperm.length_eq
        simp only [MergeState.joined, List.length_append, List.length_cons, List.length_nil] at *
        omega
    · cases h
      exact ⟨hP, by omega⟩

/-- The loop does not fail when no `Merge` does. -/
theorem mergeAll_succeeds {P : MergeState → Prop}
    (hmerge : ∀ m, P m → 2 ≤ m.pq.length → ∃ m', merge m = .ok m' ∧ P m') (fuel : Nat)
    {m : MergeState} (hP : P m) : ∃ m', mergeAll fuel m = .ok m' := by
  induction fuel generalizing m with
  | zero => exact ⟨m, rfl⟩
  | succ fuel ih =>
    unfold mergeAll
    split
    · obtain ⟨m', he, hP'⟩ := hmerge m hP ‹_›
      rw [he]
      exact ih hP'
    · exact ⟨m, rfl⟩

/-! ## NODE entries after one written -/

theorem weightAt_write (node : Memory Node) (i x : Nat) (n : Node) :
    weightAt (node.write i n) x = if i = x then n.weight.toNat else weightAt node x := by
  unfold weightAt
  rw [Memory.readNode_write]
  split <;> rfl

theorem children_write_of_ne {i x : Nat} (h : i ≠ x) (node : Memory Node) (n : Node) :
    children (node.write i n) x = children node x := by
  simp [children, Memory.readNode_write, h]

theorem children_write_internal (node : Memory Node) (i : Nat) (w : Word) (l r : BitVec 9) :
    children (node.write i (.internal w l r)) i = [l.toNat, r.toNat] := by
  simp [children, Memory.readNode_write]

/-- An internal node does not depend on the entries above it. -/
theorem internalOk_write_above {i x : Nat} (h : x < i) (node : Memory Node) (n : Node) :
    internalOk (node.write i n) x = internalOk node x := by
  have hne : i ≠ x := by omega
  unfold internalOk
  rw [Memory.readNode_write, if_neg hne]
  cases node.readNode x with
  | leaf c w => rfl
  | internal w l r =>
    by_cases hl : l.toNat < x
    · by_cases hr : r.toNat < x
      · have hil : i ≠ l.toNat := by omega
        have hir : i ≠ r.toNat := by omega
        simp [weightAt_write, hil, hir]
      · simp [hr]
    · simp [hl]

/-! ## The seeded leaves (43_tree_builder.md R220) -/

/-- The node table starts with these leaves. -/
def LeavesAre (freq : Vector Word 256) (node : Memory Node) (cs : List Byte) : Prop :=
  (List.range cs.length).map node.readNode = cs.map (fun c => Node.leaf c (entryAt freq c))

/-- An entry written above the leaves leaves them. -/
theorem LeavesAre.write_above {freq : Vector Word 256} {node : Memory Node} {cs : List Byte}
    (h : LeavesAre freq node cs) {i : Nat} (hi : cs.length ≤ i) (n : Node) :
    LeavesAre freq (node.write i n) cs := by
  refine Eq.trans (List.map_congr_left fun x hx => ?_) h
  have hne : i ≠ x := by have := List.mem_range.mp hx; omega
  rw [Memory.readNode_write, if_neg hne]

/-- Seeding numbers the leaves 0, 1, ..., each in the queue, and writes no other entry. -/
theorem seed_foldl (freq : Vector Word 256) (node : Memory Node) (cs : List Byte) :
    (cs.foldl (seedLeaf freq) ⟨node, [], 0⟩).idx = cs.length ∧
      (cs.foldl (seedLeaf freq) ⟨node, [], 0⟩).pq = List.range cs.length ∧
      LeavesAre freq (cs.foldl (seedLeaf freq) ⟨node, [], 0⟩).node cs := by
  induction cs using List.reverseRecOn with
  | nil => exact ⟨rfl, rfl, rfl⟩
  | append_singleton cs c ih =>
    obtain ⟨hidx, hpq, hleaves⟩ := ih
    have hnew := hleaves.write_above (Nat.le_refl _) (.leaf c (entryAt freq c))
    unfold LeavesAre at hnew ⊢
    simp only [List.foldl_append, List.foldl_cons, List.foldl_nil, seedLeaf, hidx, hpq,
      List.length_append, List.length_cons, List.length_nil, List.range_succ, List.map_append,
      hnew, List.map_cons, List.map_nil, Memory.readNode_write, if_true, and_self]

theorem seedLeaves_pq_length (freq : Vector Word 256) (node : Memory Node) :
    (seedLeaves freq node).pq.length = alphabetSize freq := by
  rw [seedLeaves, (seed_foldl freq node _).2.1, List.length_range]
  rfl

theorem seed_foldl_wf (freq : Vector Word 256) {node : Memory Node} (h : node.wf 511)
    {cs : List Byte} (hcs : cs.length ≤ 511) :
    (cs.foldl (seedLeaf freq) ⟨node, [], 0⟩).node.wf 511 := by
  induction cs using List.reverseRecOn with
  | nil => exact h
  | append_singleton cs c ih =>
    simp only [List.length_append, List.length_cons, List.length_nil] at hcs
    simp only [List.foldl_append, List.foldl_cons, List.foldl_nil, seedLeaf,
      (seed_foldl freq node cs).1]
    exact Memory.write_wf (ih (by omega)) (by omega) _

theorem alphabetSize_le (freq : Vector Word 256) : alphabetSize freq ≤ 256 := by
  have h : (presentSymbols freq).length ≤ allSymbols.length := List.length_filter_le ..
  simpa [alphabetSize, allSymbols] using h

/-- The absent symbols add nothing to the sum of the counts. -/
theorem totalCount_eq (freq : Vector Word 256) :
    totalCount freq = ((presentSymbols freq).map fun c => (entryAt freq c).toNat).sum := by
  unfold totalCount presentSymbols
  induction allSymbols with
  | nil => rfl
  | cons c cs ih => by_cases hc : entryAt freq c = 0#32 <;> simp [hc, ih]

/-! ## The invariant of the merge loop -/

/-- The nodes made so far are a forest over the alphabet whose roots are in the queue, and the roots'
weights sum to the total count (43_tree_builder.md R228). -/
structure MergeOk (freq : Vector Word 256) (m : MergeState) : Prop where
  built     : alphabetSize freq ≤ m.idx
  size      : m.idx + m.pq.length = 2 * alphabetSize freq
  last      : m.idx - 1 ∈ m.pq
  leaves    : LeavesAre freq m.node (presentSymbols freq)
  internals : ∀ x, alphabetSize freq ≤ x → x < m.idx → internalOk m.node x = true
  parents   : ((List.range m.idx).flatMap (children m.node) ++ m.pq).Perm (List.range m.idx)
  total     : (m.pq.map (weightAt m.node)).sum = totalCount freq

/-- Leaves have no children. -/
theorem LeavesAre.no_children {freq : Vector Word 256} {node : Memory Node} {cs : List Byte}
    (h : LeavesAre freq node cs) : (List.range cs.length).flatMap (children node) = [] := by
  refine List.flatMap_eq_nil_iff.mpr fun x hx => ?_
  have hmem := List.mem_map_of_mem (f := node.readNode) hx
  rw [h] at hmem
  obtain ⟨c, -, hc⟩ := List.mem_map.mp hmem
  simp [children, ← hc]

/-- The leaves' weights are their counts. -/
theorem LeavesAre.weights {freq : Vector Word 256} {node : Memory Node} {cs : List Byte}
    (h : LeavesAre freq node cs) :
    (List.range cs.length).map (weightAt node) = cs.map fun c => (entryAt freq c).toNat := by
  have hw := congrArg (List.map fun n : Node => n.weight.toNat) h
  rwa [List.map_map, List.map_map] at hw

theorem seedLeaves_mergeOk {freq : Vector Word 256} (h : alphabetSize freq ≠ 0)
    (node : Memory Node) : MergeOk freq (seedLeaves freq node) := by
  obtain ⟨hidx, hpq, hleaves⟩ := seed_foldl freq node (presentSymbols freq)
  have hk : (presentSymbols freq).length = alphabetSize freq := rfl
  have hchildren := hleaves.no_children
  have hweights := hleaves.weights
  rw [hk] at hidx hpq hchildren hweights
  exact {
    built := hidx.ge
    size := by rw [seedLeaves, hidx, hpq, List.length_range]; omega
    last := by rw [seedLeaves, hidx, hpq, List.mem_range]; omega
    leaves := hleaves
    internals := fun x hx hlt => by rw [seedLeaves, hidx] at hlt; omega
    parents := by rw [seedLeaves, hidx, hpq, hchildren, List.nil_append]
    total := by rw [seedLeaves, hpq, hweights, totalCount_eq] }

theorem MergeOk.idx_le {freq : Vector Word 256} {m : MergeState} (h : MergeOk freq m) :
    m.idx + m.pq.length ≤ 512 := by
  have := alphabetSize_le freq
  have := h.size
  omega

theorem MergeOk.mem_lt {freq : Vector Word 256} {m : MergeState} (h : MergeOk freq m) {y : Nat}
    (hy : y ∈ m.pq) : y < m.idx :=
  List.mem_range.mp (h.parents.mem_iff.mp (List.mem_append_right _ hy))

/-- Two weights of the queue sum to at most the total count. -/
theorem MergeOk.pair_le {freq : Vector Word 256} {m : MergeState} (h : MergeOk freq m) {a b : Nat}
    {q : List Nat} (hperm : m.pq.Perm (a :: b :: q)) :
    weightAt m.node a + weightAt m.node b ≤ totalCount freq := by
  have hsum := (hperm.map (weightAt m.node)).sum_eq
  rw [h.total] at hsum
  simp only [List.map_cons, List.sum_cons] at hsum
  omega

/-! ### One merge -/

theorem children_joined_of_lt {m : MergeState} {x : Nat} (hx : x < m.idx) (a b : Nat) (q : List Nat)
    (w : Nat) : children (m.joined a b q w).node x = children m.node x :=
  children_write_of_ne (by omega) _ _

theorem weightAt_joined_of_lt {m : MergeState} {x : Nat} (hx : x < m.idx) (a b : Nat)
    (q : List Nat) (w : Nat) : weightAt (m.joined a b q w).node x = weightAt m.node x := by
  rw [MergeState.joined, weightAt_write, if_neg (by omega)]

theorem weightAt_joined_new (m : MergeState) (a b : Nat) (q : List Nat) {w : Nat}
    (hw : w < 2 ^ 32) : weightAt (m.joined a b q w).node m.idx = w := by
  rw [MergeState.joined, weightAt_write, if_pos rfl]
  exact BitVec.toNat_ofNat w 32 |>.trans (Nat.mod_eq_of_lt hw)

theorem readNode_joined_new (m : MergeState) (a b : Nat) (q : List Nat) (w : Nat) :
    (m.joined a b q w).node.readNode m.idx =
      .internal (BitVec.ofNat 32 w) (BitVec.ofNat 9 a) (BitVec.ofNat 9 b) := by
  rw [MergeState.joined, Memory.readNode_write, if_pos rfl]

section Joined

variable {freq : Vector Word 256} {m : MergeState} {a b w : Nat} {q : List Nat}

/-- The two members joined are nodes made before. -/
theorem MergeOk.members_lt (h : MergeOk freq m) (hperm : m.pq.Perm (a :: b :: q)) :
    a < m.idx ∧ b < m.idx ∧ ∀ y ∈ q, y < m.idx :=
  have hlt {y} (hy : y ∈ a :: b :: q) : y < m.idx := h.mem_lt (hperm.mem_iff.mpr hy)
  ⟨hlt (by simp), hlt (by simp), fun _ hy => hlt (by simp [hy])⟩

/-- The index of a node made before fits in a child field. -/
theorem MergeOk.toNat_index (h : MergeOk freq m) {y : Nat} (hy : y < m.idx) :
    (BitVec.ofNat 9 y).toNat = y := by
  have := h.idx_le
  exact BitVec.toNat_ofNat y 9 |>.trans (Nat.mod_eq_of_lt (by omega))

/-- The new node is a sound internal node. -/
theorem MergeOk.internalOk_joined (h : MergeOk freq m) (hperm : m.pq.Perm (a :: b :: q))
    (hsum : w = weightAt m.node a + weightAt m.node b) (hw : w < 2 ^ 32) :
    internalOk (m.joined a b q w).node m.idx = true := by
  obtain ⟨ha, hb, -⟩ := h.members_lt hperm
  have hw32 : (BitVec.ofNat 32 w).toNat = w :=
    BitVec.toNat_ofNat w 32 |>.trans (Nat.mod_eq_of_lt hw)
  unfold internalOk
  simp only [readNode_joined_new, h.toNat_index ha, h.toNat_index hb, ha, hb, hw32,
    weightAt_joined_of_lt ha, weightAt_joined_of_lt hb, ← hsum, decide_true, Bool.and_self,
    beq_self_eq_true]

/-- The new node is the one parent of the two members joined. -/
theorem MergeOk.parents_joined (h : MergeOk freq m) (hperm : m.pq.Perm (a :: b :: q)) :
    ((List.range (m.idx + 1)).flatMap (children (m.joined a b q w).node) ++ (q ++ [m.idx])).Perm
      (List.range (m.idx + 1)) := by
  obtain ⟨ha, hb, -⟩ := h.members_lt hperm
  have hkeep : (List.range m.idx).flatMap (children (m.joined a b q w).node) =
      (List.range m.idx).flatMap (children m.node) :=
    List.flatMap_congr fun x hx => children_joined_of_lt (List.mem_range.mp hx) a b q w
  have hnew : children (m.joined a b q w).node m.idx = [a, b] := by
    simp only [children, readNode_joined_new, h.toNat_index ha, h.toNat_index hb]
  rw [List.range_succ, List.flatMap_append, List.flatMap_singleton, hkeep, hnew]
  calc (List.range m.idx).flatMap (children m.node) ++ [a, b] ++ (q ++ [m.idx])
      = (List.range m.idx).flatMap (children m.node) ++ (a :: b :: q) ++ [m.idx] := by simp
    _ |>.Perm ((List.range m.idx).flatMap (children m.node) ++ m.pq ++ [m.idx]) :=
        (hperm.symm.append_left _).append_right _
    _ |>.Perm (List.range m.idx ++ [m.idx]) := h.parents.append_right _

/-- Joining two trees keeps the sum of the roots' weights. -/
theorem MergeOk.total_joined (h : MergeOk freq m) (hperm : m.pq.Perm (a :: b :: q))
    (hsum : w = weightAt m.node a + weightAt m.node b) (hw : w < 2 ^ 32) :
    ((q ++ [m.idx]).map (weightAt (m.joined a b q w).node)).sum = totalCount freq := by
  obtain ⟨-, -, hq⟩ := h.members_lt hperm
  have hkeep : q.map (weightAt (m.joined a b q w).node) = q.map (weightAt m.node) :=
    List.map_congr_left fun y hy => weightAt_joined_of_lt (hq y hy) a b q w
  have htotal := (hperm.map (weightAt m.node)).sum_eq
  rw [h.total] at htotal
  simp only [List.map_append, hkeep, List.map_cons, List.map_nil, weightAt_joined_new m a b q hw,
    List.sum_append, List.sum_cons, List.sum_nil] at htotal ⊢
  omega

/-- A merge keeps the invariant. -/
theorem MergeOk.joined (h : MergeOk freq m) (hperm : m.pq.Perm (a :: b :: q))
    (hsum : w = weightAt m.node a + weightAt m.node b) (hw : w < 2 ^ 32) :
    MergeOk freq (m.joined a b q w) where
  built := h.built.trans (Nat.le_succ _)
  size := by
    have hlen := hperm.length_eq
    have := h.size
    simp only [MergeState.joined, List.length_append, List.length_cons, List.length_nil] at hlen ⊢
    omega
  last := List.mem_append_right _ (List.mem_singleton.mpr rfl)
  leaves := h.leaves.write_above h.built _
  internals x hx hlt := by
    obtain hlt | rfl : x < m.idx ∨ x = m.idx := Nat.lt_succ_iff_lt_or_eq.mp hlt
    · exact (internalOk_write_above hlt _ _).trans (h.internals x hx hlt)
    · exact h.internalOk_joined hperm hsum hw
  parents := h.parents_joined hperm
  total := h.total_joined hperm hsum hw

end Joined

theorem merge_keeps_mergeOk {freq : Vector Word 256} {m m' : MergeState} (h : MergeOk freq m)
    (hlen : 2 ≤ m.pq.length) (he : merge m = .ok m') : MergeOk freq m' := by
  obtain ⟨a, b, q, w, hperm, hsum, ⟨-, herr⟩ | ⟨hw, hok⟩⟩ := merge_cases hlen
  · cases herr.symm.trans he
  · cases hok.symm.trans he
    exact h.joined hperm hsum hw

/-- No merge overflows while the counts sum below 2^32 (43_tree_builder.md R228). -/
theorem merge_succeeds {freq : Vector Word 256} {m : MergeState} (h : MergeOk freq m)
    (hlen : 2 ≤ m.pq.length) (htotal : totalCount freq < 2 ^ 32) :
    ∃ m', merge m = .ok m' ∧ MergeOk freq m' := by
  obtain ⟨a, b, q, w, hperm, hsum, ⟨hw, -⟩ | ⟨hw, hok⟩⟩ := merge_cases hlen
  · have := h.pair_le hperm
    omega
  · exact ⟨_, hok, h.joined hperm hsum hw⟩

theorem merge_keeps_wf {freq : Vector Word 256} {m m' : MergeState} (h : MergeOk freq m)
    (hwf : m.node.wf 511) (hlen : 2 ≤ m.pq.length) (he : merge m = .ok m') : m'.node.wf 511 := by
  obtain ⟨a, b, q, w, -, -, ⟨-, herr⟩ | ⟨-, hok⟩⟩ := merge_cases hlen
  · cases herr.symm.trans he
  · cases hok.symm.trans he
    have := h.idx_le
    exact Memory.write_wf hwf (by omega) _

/-! ## BUILD -/

/-- The merge loop of BUILD ends in the invariant, with one tree left, whose root is the last node. -/
theorem mergeAll_seedLeaves {freq : Vector Word 256} {node : Memory Node} {m : MergeState}
    (h : alphabetSize freq ≠ 0)
    (he : mergeAll (alphabetSize freq) (seedLeaves freq node) = .ok m) :
    MergeOk freq m ∧ m.idx = 2 * alphabetSize freq - 1 ∧
      m.pq = [2 * alphabetSize freq - 2] := by
  obtain ⟨hm, hlen⟩ := mergeAll_ok (fun _ _ => merge_keeps_mergeOk) (seedLeaves_mergeOk h node)
    (seedLeaves_pq_length freq node).le he
  obtain ⟨r, hr⟩ : ∃ r, m.pq = [r] :=
    List.length_eq_one_iff.mp (Nat.le_antisymm hlen (List.length_pos_of_mem hm.last))
  have hsize := hm.size
  have hlast := hm.last
  simp only [hr, List.length_singleton, List.mem_singleton] at hsize hlast
  refine ⟨hm, by omega, ?_⟩
  rw [hr, ← hlast]
  congr 1
  omega

/-- The tree BUILD leaves. -/
theorem MergeOk.treeOf {freq : Vector Word 256} {m : MergeState} (h : MergeOk freq m)
    (hk : alphabetSize freq ≠ 0) (hidx : m.idx = 2 * alphabetSize freq - 1)
    (hpq : m.pq = [2 * alphabetSize freq - 2]) {root : BitVec 9} {nnodes : BitVec 10}
    (hroot : root.toNat = 2 * alphabetSize freq - 2) (hcount : nnodes.toNat = m.idx) :
    TreeOf freq m.node root nnodes where
  nonempty := Nat.one_le_iff_ne_zero.mpr hk
  count := hcount.trans hidx
  rootIndex := hroot
  leaves := h.leaves
  internals x hx hlt := h.internals x hx (hidx ▸ hlt)
  parents := by
    have hparents := h.parents
    have hrange : List.range (2 * alphabetSize freq - 1) =
        List.range (2 * alphabetSize freq - 2) ++ [2 * alphabetSize freq - 2] := by
      rw [← List.range_succ]
      congr 1
      omega
    rw [hpq, hidx] at hparents
    exact (List.perm_append_right_iff _).mp (hparents.trans (.of_eq hrange))

/-- BUILD fails and its tree is drawn, or it makes a tree whose root has the total count. -/
theorem stageBuild_tree (s : State) :
    (stageBuild s).1.treeValid = false ∨
      TreeOf s.freq (stageBuild s).1.node (stageBuild s).1.root (stageBuild s).1.nnodes ∧
        weightAt (stageBuild s).1.node (stageBuild s).1.root.toNat = totalCount s.freq := by
  obtain ⟨-, hs⟩ | ⟨idx, -, -, hs⟩ | ⟨m, hk, hm, hs⟩ := stageBuild_cases s <;> rw [hs]
  · exact .inl rfl
  · exact .inl rfl
  · obtain ⟨h, hidx, hpq⟩ := mergeAll_seedLeaves hk hm
    have hle := alphabetSize_le s.freq
    have hmin : (extractMin m.node m.pq).1 = 2 * alphabetSize s.freq - 2 := by rw [hpq]; rfl
    have hroot : (BitVec.ofNat 9 (extractMin m.node m.pq).1).toNat = 2 * alphabetSize s.freq - 2 := by
      rw [hmin]
      exact h.toNat_index (by omega)
    have hcount : (BitVec.ofNat 10 m.idx).toNat = m.idx :=
      (BitVec.toNat_ofNat m.idx 10).trans (Nat.mod_eq_of_lt (by omega))
    refine .inr ⟨h.treeOf hk hidx hpq hroot hcount, ?_⟩
    have htotal := h.total
    rw [hpq] at htotal
    simpa [hroot] using htotal

/-- BUILD's tree is over the FREQ it leaves as it was, so no premise on the old tree is needed. -/
theorem stageBuild_treeOk (s : State) : TreeOk (stageBuild s).1 := by
  intro hvalid
  obtain hinvalid | ⟨htree, -⟩ := stageBuild_tree s
  · rw [hinvalid] at hvalid
    cases hvalid
  · simpa using htree

theorem alphabetSize_ne_zero {freq : Vector Word 256} {c : Byte} (h : entryAt freq c ≠ 0) :
    alphabetSize freq ≠ 0 :=
  Nat.ne_of_gt (List.length_pos_of_mem ((mem_presentSymbols freq c).mpr h))

/-- BUILD succeeds on a map that is not empty and whose counts sum below 2^32. -/
theorem stageBuild_succeeds {s : State} (hk : alphabetSize s.freq ≠ 0)
    (htotal : totalCount s.freq < 2 ^ 32) :
    stageBuild s = ({ s with
      node := (stageBuild s).1.node
      root := (stageBuild s).1.root
      nnodes := (stageBuild s).1.nnodes
      treeValid := true }, .ok) := by
  obtain ⟨h, -⟩ | ⟨idx, -, hm, -⟩ | ⟨m, -, -, hs⟩ := stageBuild_cases s
  · exact absurd h hk
  · obtain ⟨m', hm'⟩ := mergeAll_succeeds (fun _ h hlen => merge_succeeds h hlen htotal) _
      (seedLeaves_mergeOk hk s.node)
    cases hm.symm.trans hm'
  · rw [hs]

/-- Settles O37: the merge loop keeps a forest whose roots' weights sum to the total count
(`MergeOk`), so no merge overflows, and one tree is left. -/
theorem buildMakesTheTree : Obligations.BuildMakesTheTree := by
  refine ⟨rfl, fun s ⟨c, hc⟩ htotal => ⟨complete (stageBuild s), rfl, ?_⟩⟩
  have hs := stageBuild_succeeds (alphabetSize_ne_zero hc) htotal
  have hvalid : (stageBuild s).1.treeValid = true := by rw [hs]
  obtain hinvalid | htree := stageBuild_tree s
  · rw [hinvalid] at hvalid
    cases hvalid
  · refine ⟨?_, by simpa using htree⟩
    rw [hs]
    rfl

/-! ## Every step -/

theorem treeOk_of_invalid {s : State} (h : s.treeValid = false) : TreeOk s := fun hvalid => by
  rw [h] at hvalid
  cases hvalid

theorem stageCount_treeOk (s : State) (h : TreeOk s) : TreeOk (stageCount s).1 := by
  obtain ⟨-, hs⟩ | ⟨-, hs⟩ := stageCount_cases s <;> rw [hs]
  · exact h
  · exact treeOk_of_invalid rfl

theorem CommandStage.treeOk {s : State} {i : Instr} {r : Stage} (hr : CommandStage s i r)
    (h : TreeOk s) : TreeOk r.1 := by
  have hgen (s : State) (h : TreeOk s) : TreeOk (stageGen s).1 := by simpa [TreeOk] using h
  have hpack (s : State) (h : TreeOk s) : TreeOk (stagePack s).1 := by simpa [TreeOk] using h
  cases hr with
  | count => exact stageCount_treeOk s h
  | build => exact stageBuild_treeOk s
  | gen => exact hgen s h
  | pack => exact hpack s h
  | encode =>
    exact stageEncode_keeps stageCount_treeOk (fun s _ => stageBuild_treeOk s) hgen hpack
      (fun _ h => h) (fun _ h => h) s h
  | clrf | srst => exact treeOk_of_invalid rfl
  | nop | illegal08 | illegal10 | illegal20 | illegal40 | illegal80 => exact h

theorem Effect.treeOk {s t : State} {i : Instr} (ht : Effect s i t) (h : TreeOk s) :
    TreeOk t := by
  cases ht with
  | command hr => simpa [TreeOk] using hr.treeOk h
  | wrFreqData => exact treeOk_of_invalid rfl
  | wrStatus => simpa [TreeOk] using h
  | _ => exact h

/-- Settles O58: whatever changes FREQ clears TREE_VALID, and only a BUILD that made a tree sets it. -/
theorem stepKeepsTreeOk : Obligations.StepKeepsTreeOk :=
  fun _ _ => step_keeps (fun _ _ h => h) (fun _ _ _ ht h => ht.treeOk h)
    (fun _ _ _ => treeOk_of_invalid rfl)

end Sys2Proof.Machine

/-! PROOFS, 10_state.md R20, R39, R40: the registers, the memories and the output lengths. -/

namespace Sys2Proof.Machine

/-! ## PACK (45_bit_packer.md R271 to R274) -/

theorem pushBit_p (k : PackState) (b : Bool) : (pushBit k b).p = k.p + 1 := by
  unfold pushBit
  simp only
  split <;> rfl

theorem foldl_pushBit_p (bits : List Bool) (k : PackState) :
    (bits.foldl pushBit k).p = k.p + bits.length := by
  induction bits generalizing k with
  | nil => rfl
  | cons b bits ih => rw [List.foldl_cons, ih, pushBit_p, List.length_cons, Nat.add_right_comm]; rfl

/-- What holds at the start and is kept by every code that fits (45_bit_packer.md R272) holds when all
the codes are packed. -/
theorem packFrom_ok {P : PackState → Prop} {s : State}
    (hcode : ∀ k e, P k → k.p + e.len.toNat ≤ 8 * s.params.obufBytes → P (pushCode k e)) {n i : Nat}
    {k k' : PackState} (hP : P k) (h : packFrom s n i k = .ok k') : P k' := by
  induction n generalizing i k with
  | zero =>
    cases h
    exact hP
  | succ n ih =>
    unfold packFrom at h
    simp only at h
    split at h
    · cases h
    · split at h
      · cases h
      · exact ih (hcode _ _ hP (Nat.le_of_not_lt ‹_›)) h

/-- The bits emitted fit in OBUF. -/
theorem packFrom_fits {s : State} {n i : Nat} {k k' : PackState}
    (hk : k.p ≤ 8 * s.params.obufBytes) (h : packFrom s n i k = .ok k') :
    k'.p ≤ 8 * s.params.obufBytes := by
  refine packFrom_ok (P := fun k => k.p ≤ 8 * s.params.obufBytes) (fun k e _ hfits => ?_) hk h
  rwa [pushCode, foldl_pushBit_p, CodeEntry.bits_length]

/-- NACC counts the bits of the partial byte, and OBUF is canonical. -/
structure PackOk (size : Nat) (k : PackState) : Prop where
  fill : k.nacc.toNat = k.p % 8
  obuf : k.obuf.wf size

theorem PackOk.pushBit {size : Nat} {k : PackState} (h : PackOk size k)
    (hfits : k.p + 1 ≤ 8 * size) (b : Bool) : PackOk size (pushBit k b) := by
  have hfill : (k.nacc + 1).toNat = (k.p + 1) % 8 := by
    have hone : (1 : BitVec 3).toNat = 1 := rfl
    rw [BitVec.toNat_add, h.fill, hone]
    omega
  unfold Machine.pushBit
  simp only
  split
  · rename_i hzero
    have hwrap : (k.p + 1) % 8 = 0 := by rw [← hfill, hzero]; rfl
    exact ⟨hfill, Memory.write_wf h.obuf (by omega) _⟩
  · exact ⟨hfill, h.obuf⟩

theorem PackOk.foldl_pushBit {size : Nat} {bits : List Bool} {k : PackState} (h : PackOk size k)
    (hfits : k.p + bits.length ≤ 8 * size) : PackOk size (bits.foldl Machine.pushBit k) := by
  induction bits generalizing k with
  | nil => exact h
  | cons b bits ih =>
    simp only [List.length_cons] at hfits
    exact ih (h.pushBit (by omega) b) (by rw [pushBit_p]; omega)

theorem PackOk.flushBits_wf {size : Nat} {k : PackState} (h : PackOk size k)
    (hfits : k.p ≤ 8 * size) : (flushBits k).wf size := by
  unfold flushBits
  split
  · rename_i hne
    have hpos : k.nacc.toNat ≠ 0 := fun h0 => hne (BitVec.eq_of_toNat_eq h0)
    have := h.fill
    exact Memory.write_wf h.obuf (by omega) _
  · exact h.obuf

/-- PACK writes OBUF in range. -/
theorem packFrom_flush_wf {s : State} {n : Nat} {k : PackState}
    (hwf : s.obuf.wf s.params.obufBytes) (h : packFrom s n 0 ⟨0, 0, 0, s.obuf⟩ = .ok k) :
    (flushBits k).wf s.params.obufBytes := by
  have hok : PackOk s.params.obufBytes k :=
    packFrom_ok (fun k e hk hfits => hk.foldl_pushBit (by rwa [CodeEntry.bits_length])) ⟨rfl, hwf⟩ h
  exact hok.flushBits_wf (packFrom_fits (Nat.zero_le _) h)

/-! ## BUILD's memory -/

/-- BUILD's loop writes NODE in range. -/
theorem mergeAll_seedLeaves_wf {freq : Vector Word 256} {node : Memory Node} {m : MergeState}
    (hwf : node.wf 511) (h : alphabetSize freq ≠ 0)
    (he : mergeAll (alphabetSize freq) (seedLeaves freq node) = .ok m) : m.node.wf 511 := by
  have hle : (presentSymbols freq).length ≤ 511 := (alphabetSize_le freq).trans (by decide)
  have hkeep (m m' : MergeState) (hm : MergeOk freq m ∧ m.node.wf 511) (hlen : 2 ≤ m.pq.length)
      (he : merge m = .ok m') : MergeOk freq m' ∧ m'.node.wf 511 :=
    ⟨merge_keeps_mergeOk hm.1 hlen he, merge_keeps_wf hm.1 hm.2 hlen he⟩
  exact (mergeAll_ok hkeep ⟨seedLeaves_mergeOk h node, seed_foldl_wf freq hwf hle⟩
    (seedLeaves_pq_length freq node).le he).1.2

/-! ## What holds of the registers -/

theorem addrField_lt (aw : Nat) (v : Word) : (addrField aw v).toNat < 2 ^ aw := by
  rw [addrField, BitVec.toNat_ofNat]
  exact (Nat.mod_le _ _).trans_lt (Nat.mod_lt _ (Nat.two_pow_pos aw))

theorem nextAddr_lt (aw : Nat) (a : Word) : (nextAddr aw a).toNat < 2 ^ aw := by
  rw [nextAddr, BitVec.toNat_ofNat]
  exact (Nat.mod_le _ _).trans_lt (Nat.mod_lt _ (Nat.two_pow_pos aw))

/-- Only the errors of PACK name a symbol (60_exceptions.md R320). -/
def Result.SymOk : Result → Prop
  | .ok => True
  | .err e => e.name.code ≠ 6 → e.name.code ≠ 7 → e.sym = 0

theorem stageCount_symOk (s : State) : (stageCount s).2.SymOk := by
  obtain ⟨-, h⟩ | ⟨-, h⟩ := stageCount_cases s <;> rw [h]
  · exact fun _ _ => rfl
  · trivial

theorem stageBuild_symOk (s : State) : (stageBuild s).2.SymOk := by
  obtain ⟨-, h⟩ | ⟨_, -, -, h⟩ | ⟨_, -, -, h⟩ := stageBuild_cases s <;> rw [h]
  · exact fun _ _ => rfl
  · exact fun _ _ => rfl
  · trivial

theorem stageGen_symOk (s : State) : (stageGen s).2.SymOk := by
  obtain ⟨-, h⟩ | ⟨-, h⟩ := stageGen_cases s <;> rw [h]
  · exact fun _ _ => rfl
  · trivial

theorem stagePack_symOk (s : State) : (stagePack s).2.SymOk := by
  obtain ⟨-, h⟩ | ⟨e, -, he, h⟩ | ⟨_, -, -, h⟩ := stagePack_cases s <;> rw [h]
  · exact fun _ _ => rfl
  · obtain ⟨_, -, -, -, -, hname | hname⟩ := packFrom_error he <;> intro h6 h7
    · exact absurd (congrArg ErrName.code hname) h6
    · exact absurd (congrArg ErrName.code hname) h7
  · trivial

/-- ENCODE ends as one of its stages ends, or without an error. -/
theorem stageEncode_symOk (s : State) : (stageEncode s).2.SymOk := by
  obtain ⟨s₁, e, h₁, h⟩ | ⟨s₁, -, -, h⟩ | ⟨s₁, s₂, e, -, -, h₂, h⟩ |
    ⟨s₁, s₂, s₃, e, -, -, -, h₃, h⟩ | ⟨s₁, s₂, s₃, -, -, -, -, h⟩ := stageEncode_cases s <;> rw [h]
  · simpa [h₁] using stageCount_symOk s
  · trivial
  · simpa [h₂] using stageBuild_symOk s₁
  · simpa [h₃] using stageGen_symOk s₂
  · exact stagePack_symOk s₃

theorem CommandStage.symOk {s : State} {i : Instr} {r : Stage} (hr : CommandStage s i r) :
    r.2.SymOk := by
  cases hr with
  | count => exact stageCount_symOk s
  | build => exact stageBuild_symOk s
  | gen => exact stageGen_symOk s
  | pack => exact stagePack_symOk s
  | encode => exact stageEncode_symOk s
  | nop | clrf | srst => trivial
  | illegal08 | illegal10 | illegal20 | illegal40 | illegal80 => exact fun _ _ => rfl

theorem RegistersOk.complete {r : Stage} (h : RegistersOk r.1) (hsym : r.2.SymOk) :
    RegistersOk (complete r) := by
  obtain ⟨s, _ | e⟩ := r
  · exact { h with running := fun hb => by cases hb }
  · obtain ⟨hpos, hle⟩ := e.name.code_range
    have hcode : e.name.code ≠ 0 := fun h0 => by simp [h0] at hpos
    exact { h with
      errCode := ⟨fun _ => hcode, fun _ => rfl⟩
      errRange := hle
      noError := fun he => by cases he
      errSym := hsym
      running := fun hb => by cases hb }

theorem stageCount_registersOk (s : State) (h : RegistersOk s) : RegistersOk (stageCount s).1 := by
  obtain ⟨-, hs⟩ | ⟨-, hs⟩ := stageCount_cases s <;> rw [hs] <;> exact { h with }

theorem stageGen_registersOk (s : State) (h : RegistersOk s) : RegistersOk (stageGen s).1 := by
  obtain ⟨-, hs⟩ | ⟨-, hs⟩ := stageGen_cases s <;> rw [hs] <;> exact { h with }

/-- NNODES after BUILD is drawn in its range (10_state.md R20), or it is the tree's 2k - 1. -/
theorem stageBuild_registersOk (s : State) (h : RegistersOk s) : RegistersOk (stageBuild s).1 := by
  have hlost : RegistersOk s.loseTree := by
    have hlt := (Config.freeBits 9 (s.draws + 2) 0).isLt
    refine { h with node := Memory.drawn_wf _ _, nnodes := ?_ }
    rw [State.loseTree_nnodes, BitVec.toNat_setWidth]
    omega
  obtain ⟨-, hs⟩ | ⟨idx, -, -, hs⟩ | ⟨m, hk, hm, hs⟩ := stageBuild_cases s <;> rw [hs]
  · exact hlost
  · exact hlost
  · have hidx := (mergeAll_seedLeaves hk hm).2.1
    have hle := alphabetSize_le s.freq
    have hcount : (BitVec.ofNat 10 m.idx).toNat ≤ 511 :=
      (BitVec.toNat_ofNat m.idx 10).trans_le ((Nat.mod_le _ _).trans (by omega))
    exact { h with node := mergeAll_seedLeaves_wf h.node hk hm, nnodes := hcount }

theorem stagePack_registersOk (s : State) (h : RegistersOk s) : RegistersOk (stagePack s).1 := by
  obtain ⟨-, hs⟩ | ⟨_, -, -, hs⟩ | ⟨k, -, hk, hs⟩ := stagePack_cases s <;> rw [hs]
  · exact { h with }
  · exact { h with obuf := Memory.drawn_wf _ _ }
  · have hflush := packFrom_flush_wf h.obuf hk
    exact { h with obuf := hflush }

theorem stageSrst_registersOk (s : State) (h : RegistersOk s) : RegistersOk (stageSrst s).1 :=
  { h with
    ibufAddr := Nat.two_pow_pos _
    obufAddr := Nat.two_pow_pos _
    errCode := by simp [stageSrst]
    errRange := Nat.zero_le _
    noError := fun _ => rfl
    errSym := fun _ _ => rfl
    nnodes := Nat.zero_le _ }

theorem CommandStage.registersOk {s : State} {i : Instr} {r : Stage} (hr : CommandStage s i r)
    (h : RegistersOk s) : RegistersOk r.1 := by
  cases hr with
  | count => exact stageCount_registersOk s h
  | build => exact stageBuild_registersOk s h
  | gen => exact stageGen_registersOk s h
  | pack => exact stagePack_registersOk s h
  | encode =>
    exact stageEncode_keeps stageCount_registersOk stageBuild_registersOk stageGen_registersOk
      stagePack_registersOk (fun _ h => { h with }) (fun _ h => { h with }) s h
  | srst => exact stageSrst_registersOk s h
  | nop | clrf | illegal08 | illegal10 | illegal20 | illegal40 | illegal80 => exact { h with }

/-- A STATUS write clears DONE, which a running command does not have, and the error record as a whole. -/
theorem w1c_registersOk {s : State} (h : RegistersOk s) (v : Word) : RegistersOk (s.w1c v) := by
  have hdone : RegistersOk (if v[1] then { s with done := false } else s) := by
    split
    · exact { h with running := fun hb => ⟨rfl, (h.running hb).2⟩ }
    · exact h
  have herr {u : State} (h : RegistersOk u) : RegistersOk (if v[2] then u.acknowledge else u) := by
    split
    · exact { h with
        errCode := by simp
        errRange := Nat.zero_le _
        noError := fun _ => rfl
        errSym := fun _ _ => rfl }
    · exact h
  have hviol {u : State} (h : RegistersOk u) :
      RegistersOk (if v[3] then { u with busyViol := false } else u) := by
    split
    · exact { h with }
    · exact h
  exact hviol (herr hdone)

theorem accept_registersOk {s : State} (h : RegistersOk s) (w : Word) : RegistersOk (s.accept w) :=
  { h with running := fun _ => ⟨rfl, BitVec.setWidth_eq_extractLsb' (v := 32) (by decide)⟩ }

theorem Effect.registersOk {s t : State} {i : Instr} (ht : Effect s i t) (h : RegistersOk s) :
    RegistersOk t := by
  cases ht with
  | command hr => exact (hr.registersOk h).complete hr.symOk
  | rdIbufData => exact { h with ibufAddr := nextAddr_lt _ _ }
  | rdObufData => exact { h with obufAddr := nextAddr_lt _ _ }
  | wrStatus v r => exact { w1c_registersOk h v with }
  | wrCmd w r => exact { accept_registersOk h w with }
  | wrIbufAddr => exact { h with ibufAddr := addrField_lt _ _ }
  | wrObufAddr => exact { h with obufAddr := addrField_lt _ _ }
  | wrIbufData =>
    exact { h with
      ibuf := Memory.write_wf h.ibuf h.ibufAddr _
      ibufAddr := nextAddr_lt _ _ }
  | quiet | rejected | wrIrqEn | wrInLen | wrFreqSel | wrFreqData | wrCtSel => exact { h with }

theorem afterReset_registersOk (p : Config.Params) (d : Nat) (l : List Event) :
    RegistersOk (State.afterReset p d l) where
  ibuf := Memory.drawn_wf _ _
  obuf := Memory.drawn_wf _ _
  node := Memory.drawn_wf _ _
  ibufAddr := Nat.two_pow_pos _
  obufAddr := Nat.two_pow_pos _
  errCode := by simp [State.afterReset]
  errRange := Nat.zero_le _
  noError _ := rfl
  errSym _ _ := rfl
  running hb := by cases hb
  nnodes := Nat.zero_le _

/-- Settles O57: every effect keeps the registers and memories well-formed. -/
theorem stepKeepsRegistersOk : Obligations.StepKeepsRegistersOk :=
  fun _ _ => step_keeps (fun _ _ h => { h with }) (fun _ _ _ ht h => ht.registersOk h)
    afterReset_registersOk

end Sys2Proof.Machine

/-! PROOFS, 10_state.md R39, R40, R51, R52, R60, R61: the output lengths, who writes the memories and tables,
and what clears the sticky flags. -/

namespace Sys2Proof.Machine

/-! ## The output lengths -/

theorem obufBytes_le (p : Config.Params) : p.obufBytes ≤ 2 ^ 28 := by
  have := p.obufAwLess4.isLt
  exact Nat.pow_le_pow_right (by decide) (by unfold Config.Params.obufAw; omega)

theorem outputOk_of_empty {s : State} (hbytes : s.outBytes = 0) (hbits : s.outBits = 0) :
    OutputOk s where
  absent _ := ⟨hbytes, hbits⟩
  bytes := by rw [hbytes, hbits]; rfl
  fits := by rw [hbits]; exact Nat.zero_le _

theorem stagePack_outputOk (s : State) : OutputOk (stagePack s).1 := by
  obtain ⟨-, hs⟩ | ⟨_, -, -, hs⟩ | ⟨k, -, hk, hs⟩ := stagePack_cases s <;> rw [hs]
  · exact outputOk_of_empty rfl rfl
  · exact outputOk_of_empty rfl rfl
  · have hfits : k.p ≤ 8 * s.params.obufBytes := packFrom_fits (Nat.zero_le _) hk
    have := obufBytes_le s.params
    have hbits : (BitVec.ofNat 32 k.p).toNat = k.p :=
      (BitVec.toNat_ofNat k.p 32).trans (Nat.mod_eq_of_lt (by omega))
    have hbytes : (BitVec.ofNat 32 ((k.p + 7) / 8)).toNat = (k.p + 7) / 8 :=
      (BitVec.toNat_ofNat _ 32).trans (Nat.mod_eq_of_lt (by omega))
    exact ⟨fun hvalid => (by cases hvalid), by rw [hbytes, hbits], hbits.trans_le hfits⟩

/-- The output lengths depend on the output registers and the parameters only. -/
theorem OutputOk.congr {s t : State} (h : OutputOk s) (hvalid : t.outValid = s.outValid)
    (hbytes : t.outBytes = s.outBytes) (hbits : t.outBits = s.outBits)
    (hparams : t.params = s.params) : OutputOk t where
  absent := by simpa only [hvalid, hbytes, hbits] using h.absent
  bytes := by simpa only [hbytes, hbits] using h.bytes
  fits := by simpa only [hbits, hparams] using h.fits

theorem CommandStage.outputOk {s : State} {i : Instr} {r : Stage} (hr : CommandStage s i r)
    (h : OutputOk s) : OutputOk r.1 := by
  have hcount (s : State) (h : OutputOk s) : OutputOk (stageCount s).1 :=
    h.congr (by simp) (by simp) (by simp) (by simp)
  have hbuild (s : State) (h : OutputOk s) : OutputOk (stageBuild s).1 :=
    h.congr (by simp) (by simp) (by simp) (by simp)
  have hgen (s : State) (h : OutputOk s) : OutputOk (stageGen s).1 :=
    h.congr (by simp) (by simp) (by simp) (by simp)
  cases hr with
  | count => exact hcount s h
  | build => exact hbuild s h
  | gen => exact hgen s h
  | pack => exact stagePack_outputOk s
  | encode =>
    exact stageEncode_keeps hcount hbuild hgen (fun s _ => stagePack_outputOk s)
      (fun _ _ => outputOk_of_empty rfl rfl) (fun _ _ => outputOk_of_empty rfl rfl) s h
  | srst => exact outputOk_of_empty rfl rfl
  | nop | clrf | illegal08 | illegal10 | illegal20 | illegal40 | illegal80 => exact { h with }

theorem Effect.outputOk {s t : State} {i : Instr} (ht : Effect s i t) (h : OutputOk s) :
    OutputOk t := by
  cases ht with
  | command hr => exact (hr.outputOk h).congr (by simp) (by simp) (by simp) (by simp)
  | wrStatus => exact h.congr (by simp) (by simp) (by simp) (by simp)
  | _ => exact { h with }

/-- Settles O60: only PACK makes an output, and its capacity check keeps it within OBUF. -/
theorem stepKeepsOutputOk : Obligations.StepKeepsOutputOk :=
  fun _ _ => step_keeps (fun _ _ h => { h with }) (fun _ _ _ ht h => ht.outputOk h)
    (fun _ _ _ => outputOk_of_empty rfl rfl)

/-- Settles O56: reset draws the memories and clears every register and table. -/
theorem resetMeetsTheInvariants : Obligations.ResetMeetsTheInvariants :=
  ⟨afterReset_registersOk _ _ _, treeOk_of_invalid rfl, emptyCodes_codesOk,
    outputOk_of_empty rfl rfl⟩

/-! ## Who writes what -/

/-- ENCODE leaves what none of its stages writes (46_encode_pipeline.md R300). -/
@[simp] theorem stageEncode_same (s : State) :
    (stageEncode s).1.ibuf = s.ibuf ∧ (stageEncode s).1.busy = s.busy ∧
    (stageEncode s).1.pending = s.pending ∧ (stageEncode s).1.done = s.done ∧
    (stageEncode s).1.err = s.err ∧ (stageEncode s).1.busyViol = s.busyViol ∧
    (stageEncode s).1.lastOp = s.lastOp ∧ (stageEncode s).1.irqEn = s.irqEn :=
  stageEncode_keeps (P := fun t => t.ibuf = s.ibuf ∧ t.busy = s.busy ∧ t.pending = s.pending ∧
      t.done = s.done ∧ t.err = s.err ∧ t.busyViol = s.busyViol ∧ t.lastOp = s.lastOp ∧
      t.irqEn = s.irqEn)
    (by simp) (by simp) (by simp) (by simp) (by simp) (by simp) s (by simp)

/-- Settles O52: the laws of each update and of each stage say which memories and tables it leaves. -/
theorem writersOfMemoriesAndTables : Obligations.WritersOfMemoriesAndTables := by
  intro i s t ht
  cases exec_effect ht with
  | command hr => cases hr <;> simp [stageNop, stageClrf, stageSrst, stageIllegal]
  | _ => simp

/-- No command accepts another one. -/
theorem CommandStage.sequencing {s : State} {i : Instr} {r : Stage} (hr : CommandStage s i r) :
    r.1.pending = s.pending ∧ r.1.lastOp = s.lastOp := by
  cases hr <;> simp [stageNop, stageClrf, stageSrst, stageIllegal]

/-- Only SRST clears an error or a violation, or writes IRQ_EN (41_command_control.md R186). -/
theorem CommandStage.flags {s : State} {i : Instr} {r : Stage} (hr : CommandStage s i r)
    (hi : i ≠ .srst) : r.1.err = s.err ∧ r.1.busyViol = s.busyViol ∧ r.1.irqEn = s.irqEn := by
  cases hr with
  | srst => exact absurd rfl hi
  | _ => simp [stageNop, stageClrf, stageIllegal]

/-- A completion clears neither DONE nor, except SRST's, ERR and BUSY_VIOL. -/
theorem CommandStage.complete_sticky {s : State} {i : Instr} {r : Stage}
    (hr : CommandStage s i r) :
    (complete r).done = true ∧ (i = .srst ∨
      (s.err = true → (complete r).err = true) ∧ (complete r).busyViol = s.busyViol) := by
  refine ⟨(complete_idle r).2, or_iff_not_imp_left.mpr fun hi => ?_⟩
  obtain ⟨herr, hviol, -⟩ := hr.flags hi
  refine ⟨fun hs => ?_, by simpa using hviol⟩
  obtain ⟨-, hc, -⟩ | ⟨_, -, hc, -⟩ := complete_record r
  · rw [hc, herr, hs]
  · exact hc

/-- Settles O53: a completion sets DONE and, except SRST's, keeps or sets the others; a STATUS write clears
by its bits, and an accepted command clears DONE. -/
theorem stickyFlagsClearByTheirEvents : Obligations.StickyFlagsClearByTheirEvents := by
  intro i s t ht
  cases exec_effect ht with
  | command hr =>
    obtain ⟨hdone, rfl | ⟨herr, hviol⟩⟩ := hr.complete_sticky
    · simp [hdone]
    · refine ⟨fun _ h => ?_, fun hs h => ?_, fun hs h => ?_⟩
      · simp [hdone] at h
      · simp [herr hs] at h
      · rw [hviol, hs] at h
        cases h
  | wrCmd w r idle => simp [idle]
  | _ => simp +contextual

end Sys2Proof.Machine

/-! PROOFS, 10_state.md R58, R59, R62: one command in flight, and the interrupt line. -/

namespace Sys2Proof.Machine

/-! ## The rows' instructions -/

/-- A transaction decodes to its row's instruction. -/
theorem decode_bus_row {x : BusTxn} {i : Instr} (h : decode (.bus x) = .ok i) :
    ∃ r ∈ busRows, x.op &&& r.mask = r.pattern ∧ i = r.make x := by
  replace h : decodeBus x = .ok i := h
  unfold decodeBus at h
  split at h
  · cases h
  · split at h
    · cases h
    · split at h <;> cases h
      rename_i r hr
      exact ⟨r, List.mem_of_find?_eq_some hr, by simpa using List.find?_some hr, rfl⟩

/-- A command word decodes to its row's instruction. -/
theorem decode_cmd_row {w : Word} {i : Instr} (h : decode (.cmd w) = .ok i) :
    ∃ r ∈ cmdRows, i = r.make w := by
  replace h : decodeCmd w = .ok i := h
  unfold decodeCmd at h
  split at h <;> cases h
  rename_i r hr
  exact ⟨r, List.mem_of_find?_eq_some hr, rfl⟩

/-- A decoded command word is a command, with a stage to run. -/
theorem decode_cmd_commandStage {w : Word} {i : Instr} (h : decode (.cmd w) = .ok i) (s : State) :
    ∃ r, CommandStage s i r := by
  have hrows : ∀ r ∈ cmdRows, ∃ st, CommandStage s (r.make w) st := by
    simp only [cmdRows, List.forall_mem_cons]
    exact ⟨⟨_, .nop⟩, ⟨_, .clrf⟩, ⟨_, .count⟩, ⟨_, .build⟩, ⟨_, .gen⟩, ⟨_, .pack⟩, ⟨_, .encode⟩,
      ⟨_, .srst⟩, ⟨_, .illegal08 _⟩, ⟨_, .illegal10 _⟩, ⟨_, .illegal20 _⟩, ⟨_, .illegal40 _⟩,
      ⟨_, .illegal80 _⟩, by simp⟩
  obtain ⟨r, hr, rfl⟩ := decode_cmd_row h
  exact hrows r hr

/-- Is it a transaction? -/
def isBusPacket : Packet → Bool
  | .bus _ => true
  | .cmd _ => false

theorem commandStage_encode_not_bus {s : State} {i : Instr} {r : Stage} (hr : CommandStage s i r) :
    isBusPacket (encode i) = false := by
  cases hr <;> rfl

/-- No transaction decodes to a command: every BUS row makes an instruction of its own format. -/
theorem decode_bus_not_command {x : BusTxn} {i : Instr} (h : decode (.bus x) = .ok i) {s : State}
    {r : Stage} : ¬ CommandStage s i r := by
  have hrows : busRows.all (fun r => isBusPacket (encode (r.make x))) = true := rfl
  obtain ⟨row, hrow, -, rfl⟩ := decode_bus_row h
  have hbus := List.all_eq_true.mp hrows row hrow
  exact fun hr => Bool.noConfusion (hbus.symm.trans (commandStage_encode_not_bus hr))

/-- Is it a CMD write? -/
def isCmdWrite : Instr → Bool
  | .wrCmd _ => true
  | _ => false

/-- The only transaction that decodes to a CMD write is the write to offset 0x10. -/
theorem decode_bus_wrCmd {x : BusTxn} {w : Word} (h : decode (.bus x) = .ok (.wrCmd w)) :
    x.write = true ∧ x.offset = 0x10 ∧ w = x.wdata := by
  have hrows : busRows.filter (fun r => isCmdWrite (r.make x)) =
      [⟨"WR.CMD", 0x1FF, 0x110, fun t => .wrCmd t.wdata⟩] := rfl
  have hop : ∀ (b : Bool) (o : BitVec 8), (BitVec.ofBool b ++ o) &&& 0x1FF#9 = 0x110#9 →
      b = true ∧ o = 0x10 := by decide
  obtain ⟨r, hr, hmatch, hi⟩ := decode_bus_row h
  have hmem : r ∈ busRows.filter (fun r => isCmdWrite (r.make x)) :=
    List.mem_filter.mpr ⟨hr, by rw [← hi]; rfl⟩
  rw [hrows] at hmem
  cases List.mem_singleton.mp hmem
  cases hi
  obtain ⟨hwrite, hoffset⟩ := hop x.write x.offset hmatch
  exact ⟨hwrite, hoffset, rfl⟩

/-! ## The sequencing state -/

/-- `t` has the sequencing state of `s`: BUSY, PENDING and LAST_OP. -/
def SameSequencing (s t : State) : Prop :=
  t.busy = s.busy ∧ t.pending = s.pending ∧ t.lastOp = s.lastOp

/-- A transaction leaves the sequencing state, or it is the CMD write that is accepted
(41_command_control.md R180). -/
theorem hostStep_sequencing {x : BusTxn} {s t : State} (h : hostStep x s = .next t) :
    SameSequencing s t ∨
      s.busy = false ∧ t.busy = true ∧ x.write = true ∧ x.offset = 0x10 ∧ t.pending = x.wdata ∧
        t.lastOp = x.wdata.extractLsb' 0 8 := by
  obtain ⟨i, hdec, hi⟩ | ⟨_, -, rfl⟩ := hostStep_cases h
  · cases exec_effect hi with
    | command hr => exact absurd hr (decode_bus_not_command hdec)
    | wrCmd w r idle =>
      obtain ⟨hwrite, hoffset, rfl⟩ := decode_bus_wrCmd hdec
      exact .inr ⟨idle, rfl, hwrite, hoffset, rfl,
        BitVec.setWidth_eq_extractLsb' (v := 32) (by decide)⟩
    | wrStatus v r => exact .inl (by simp [SameSequencing])
    | _ => exact .inl ⟨rfl, rfl, rfl⟩
  · exact .inl ⟨rfl, rfl, rfl⟩

/-- The engine's step leaves PENDING and LAST_OP, and the engine idle. -/
theorem engineStep_sequencing {s t : State} (h : engineStep s = .next t) :
    t.busy = false ∧ t.pending = s.pending ∧ t.lastOp = s.lastOp := by
  have hcomplete {i r} (hr : CommandStage s i r) : (complete r).busy = false ∧
      (complete r).pending = s.pending ∧ (complete r).lastOp = s.lastOp :=
    ⟨(complete_idle r).1, by simpa using hr.sequencing⟩
  obtain ⟨-, i, hdec, hi⟩ | ⟨-, _, -, rfl⟩ | ⟨hidle, rfl⟩ := engineStep_cases h
  · obtain ⟨r, hr⟩ := decode_cmd_commandStage hdec s
    cases hr.exec_eq.symm.trans hi
    exact hcomplete hr
  · exact hcomplete (.illegal08 0)
  · exact ⟨hidle, rfl, rfl⟩

/-- Where the next event comes from. -/
theorem nextEvent_fst (s : State) :
    (s.events = [] ∧ (nextEvent s).1 = .complete) ∨
      ∃ rest, s.events = (nextEvent s).1 :: rest := by
  cases he : s.events with
  | nil => exact .inl ⟨rfl, by rw [nextEvent_nil he]⟩
  | cons e rest => exact .inr ⟨rest, by rw [nextEvent_cons he]⟩

/-- Settles O54: a transaction leaves the sequencing state or is the accepted CMD write, and the engine's
step only ends a command. -/
theorem oneCommandInFlight : Obligations.OneCommandInFlight := by
  intro s t ht hreset
  have hhead := nextEvent_fst s
  obtain ⟨x, hx, hstep⟩ | ⟨hx, hstep⟩ | ⟨hx, -⟩ := step_cases ht <;> rw [hx] at hhead
  · obtain ⟨-, he⟩ | ⟨rest, he⟩ := hhead
    · cases he
    obtain ⟨hbusy, hpending, hlast⟩ | ⟨hidle, hbusy, hwrite, hoffset, hpending, hlast⟩ :=
      hostStep_sequencing hstep
    · refine ⟨fun hchange => ?_, fun hs hdone => ?_⟩
      · simp only [hbusy, hpending, hlast, State.withEvents_same] at hchange
        cases hb : s.busy <;> simp [hb] at hchange
      · exact absurd (hbusy.trans hs) (by simp [hdone])
    · exact ⟨fun _ => ⟨hidle, hbusy, x, rest, he, hwrite, hoffset, hpending, hlast⟩,
        fun hs => absurd (hs.symm.trans hidle) (by simp)⟩
  · obtain ⟨hbusy, hpending, hlast⟩ := engineStep_sequencing hstep
    refine ⟨fun hchange => ?_, fun _ _ => ?_⟩
    · simp [hbusy, hpending, hlast] at hchange
    · exact hhead.imp And.left fun ⟨rest, he⟩ => by rw [he]; rfl
  · obtain ⟨-, he⟩ | ⟨rest, he⟩ := hhead
    · cases he
    · exact absurd (congrArg List.head? he) hreset

/-! ## The interrupt line (10_state.md R62) -/

theorem irq_iff (s : State) : s.irq = true ↔
    (s.done = true ∧ s.irqEn.getLsbD 0 = true) ∨ (s.err = true ∧ s.irqEn.getLsbD 1 = true) ∨
      (s.busyViol = true ∧ s.irqEn.getLsbD 2 = true) := by
  simp [State.irq, or_assoc]

/-- With every enable off the line is low. -/
theorem irq_of_disabled {s : State} (h : s.irqEn = 0) : s.irq = false := by
  simp [State.irq, h]

/-- Settles O55: a command other than SRST completes with DONE and leaves IRQ_EN; SRST and a write of 0
turn every enable off. -/
theorem interruptFollowsThePendingBits : Obligations.InterruptFollowsThePendingBits := by
  refine ⟨irq_iff, fun s t w i hdec hi ht hen => ?_, fun s t ht => ?_, fun s t ht => ?_⟩
  · obtain ⟨r, hr⟩ := decode_cmd_commandStage hdec s
    obtain ⟨-, -, hirqEn⟩ := hr.flags hi
    cases hr.exec_eq.symm.trans ht
    exact (irq_iff _).mpr (.inl ⟨(complete_idle r).2, by simpa [hirqEn] using hen⟩)
  · cases ht
    exact irq_of_disabled rfl
  · cases ht
    exact irq_of_disabled rfl

end Sys2Proof.Machine

/-! PROOFS, 10_state.md R29, R35, R37, R41 to R47, R64: the reads and writes of the host, and reset. -/

namespace Sys2Proof.Machine

/-! ## STATUS (10_state.md R29) -/

/-- STATUS has the layout of R29: bit by bit. -/
theorem statusWord_eq (s : State) :
    s.statusWord = statusBits s (BitVec.ofBool s.outValid ++ BitVec.ofBool s.treeValid) := by
  refine BitVec.eq_of_getLsbD_eq fun i hi => ?_
  simp only [statusBits, BitVec.getLsbD_append]
  interval_cases i <;> simp [State.statusWord, flagWord]

/-- While BUSY = 1 the drawn bits stand in [5:4]. -/
theorem statusWordDrawn_eq (s : State) (drawn : BitVec 2) :
    s.statusWordDrawn drawn = statusBits s drawn := by
  refine BitVec.eq_of_getLsbD_eq fun i hi => ?_
  simp only [statusBits, BitVec.getLsbD_append]
  interval_cases i <;> simp [State.statusWordDrawn, State.statusWord, flagWord]

/-- Settles O12: STATUS has the layout of R29, and while BUSY = 1 two of its bits are the draw. -/
theorem statusRead : Obligations.StatusRead := by
  refine ⟨rfl, fun s => ⟨fun hidle => ?_, fun hbusy => ?_⟩⟩
  · have hread : exec .rdStatus s = readExact s s.statusWord := if_neg (by simp [hidle])
    rw [hread, readExact_eq, statusWord_eq]
  · have hread : exec .rdStatus s = .next ((s.drew 1).respond
        (.read (s.statusWordDrawn (Config.freeBits 2 s.draws 0)) false)) := if_pos hbusy
    exact ⟨_, by rw [hread, statusWordDrawn_eq]; rfl⟩

/-! ## The data windows (10_state.md R35, R37) -/

theorem byteWord_eq (b : Byte) : byteWord b = 0#24 ++ b :=
  BitVec.setWidth_eq_append (v := 8) (by decide)

theorem nextAddr_toNat {aw : Nat} (haw : aw ≤ 32) (a : Word) :
    (nextAddr aw a).toNat = (a.toNat + 1) % 2 ^ aw := by
  rw [nextAddr, BitVec.toNat_ofNat]
  exact Nat.mod_eq_of_lt ((Nat.mod_lt _ (Nat.two_pow_pos aw)).trans_le
    (Nat.pow_le_pow_right (by decide) haw))

theorem aw_le (p : Config.Params) : p.ibufAw ≤ 32 ∧ p.obufAw ≤ 32 := by
  have := p.ibufAwLess4.isLt
  have := p.obufAwLess4.isLt
  unfold Config.Params.ibufAw Config.Params.obufAw
  omega

/-- Settles O16: the idle read's law, with the width of the address register at most 32. -/
theorem dataWindowReads : Obligations.DataWindowReads := by
  refine ⟨rfl, rfl, fun s hidle => ?_⟩
  obtain ⟨hi, ho⟩ := aw_le s.params
  refine ⟨⟨_, nextAddr_toNat hi s.ibufAddr, ?_⟩, ⟨_, nextAddr_toNat ho s.obufAddr, ?_⟩⟩
  · exact (readUnlessBusy_idle hidle _ _).trans (by rw [byteWord_eq]; rfl)
  · exact (readUnlessBusy_idle hidle _ _).trans (by rw [byteWord_eq]; rfl)

/-! ## The FREQ window and reset -/

/-- Settles O24: the idle write's law, and a table's read after a write. -/
theorem frequencyWrite : Obligations.FrequencyWrite := by
  intro s v hidle
  have hdec : decode (writeOf 0x48 v) = .ok (.wrFreqData v) := by
    simp [writeOf, decode, decodeBus, BusTxn.op, busRows, readRowsLow, readRowsHigh, writeRowsLow,
      writeRowsHigh]
  refine ⟨hdec, _, writeUnlessBusy_idle hidle _, rfl, ?_, fun c hc => ?_⟩
  · exact (entryAt_setEntry _ _ _ _).trans (if_pos rfl)
  · exact (entryAt_setEntry _ _ _ _).trans (if_neg hc.symm)

/-- Settles O29: both states are `State.afterReset`. -/
theorem hardwareReset : Obligations.HardwareReset := by
  refine fun s rest he => ⟨_, step_reset he, rfl, ?_⟩
  rintro u (rfl | rfl) <;>
    exact ⟨rfl, rfl, rfl, entryAt_zeroFreq, rfl, rfl, rfl, entryAt_emptyCodes, rfl, rfl, rfl, rfl,
      rfl, rfl, rfl, rfl, rfl, rfl, rfl, rfl, rfl, rfl, rfl, rfl, rfl, rfl⟩

/-! ## CT_MAXLEN (10_state.md R46) -/

/-- The largest length of the valid entries, from `m` on. -/
def maxLen (m : Nat) (es : List CodeEntry) : Nat :=
  es.foldl (fun m e => if e.valid then max m e.len.toNat else m) m

theorem le_maxLen (m : Nat) (es : List CodeEntry) :
    m ≤ maxLen m es ∧ ∀ e ∈ es, e.valid = true → e.len.toNat ≤ maxLen m es := by
  induction es generalizing m with
  | nil => exact ⟨Nat.le_refl _, by simp⟩
  | cons e es ih =>
    obtain ⟨hm, hes⟩ := ih (if e.valid then max m e.len.toNat else m)
    refine ⟨le_trans ?_ hm, fun d hd hvalid => ?_⟩
    · split
      · exact le_max_left _ _
      · exact Nat.le_refl _
    · obtain rfl | hd := List.mem_cons.mp hd
      · rw [if_pos hvalid] at hm
        refine le_trans (le_max_right _ _) hm |>.trans_eq ?_
        simp [maxLen, hvalid]
      · exact hes d hd hvalid

theorem maxLen_attained (m : Nat) (es : List CodeEntry) :
    maxLen m es = m ∨ ∃ e ∈ es, e.valid = true ∧ e.len.toNat = maxLen m es := by
  refine List.foldlRecOn es
    (motive := fun n => n = m ∨ ∃ e ∈ es, e.valid = true ∧ e.len.toNat = n) _ (.inl rfl)
    fun n hn e he => ?_
  split
  · rename_i hvalid
    obtain h | h := max_choice n e.len.toNat <;> rw [h]
    · exact hn
    · exact .inr ⟨e, he, hvalid, rfl⟩
  · exact hn

theorem mem_ct_iff {ct : Vector CodeEntry 256} {e : CodeEntry} :
    e ∈ ct.toList ↔ ∃ c, entryAt ct c = e := by
  rw [Vector.mem_toList_iff, Vector.mem_iff_getElem]
  refine ⟨fun ⟨i, hi, he⟩ => ⟨BitVec.ofNat 8 i, ?_⟩, fun ⟨c, hc⟩ => ⟨c.toNat, c.isLt, hc⟩⟩
  have hnat : (BitVec.ofNat 8 i).toNat = i := (BitVec.toNat_ofNat i 8).trans (Nat.mod_eq_of_lt hi)
  simpa only [entryAt, hnat] using he

/-- CT_MAXLEN fits in its word. -/
theorem ctMaxlen_toNat (s : State) : s.ctMaxlen.toNat = maxLen 0 s.ct.toList := by
  refine (BitVec.toNat_ofNat _ 32).trans (Nat.mod_eq_of_lt ?_)
  obtain h | ⟨e, -, -, h⟩ := maxLen_attained 0 s.ct.toList
  · exact h.trans_lt (by decide)
  · exact h.symm.trans_lt (e.len.isLt.trans (by decide))

/-- Settles O14: CT_MAXLEN is an upper bound of the valid lengths that one of them attains, or 0. -/
theorem codeLengthReads : Obligations.CodeLengthReads := by
  refine ⟨rfl, rfl, fun s hidle => ⟨?_, s.ctMaxlen, readUnlessBusy_idle hidle _ _, ?_⟩⟩
  · have hword : s.ctWindow.lenWord =
        BitVec.ofBool s.ctWindow.valid ++ 0#23 ++ s.ctWindow.len := BitVec.append_assoc.symm
    exact (readUnlessBusy_idle hidle _ _).trans (by rw [hword]; rfl)
  · have hm := ctMaxlen_toNat s
    refine ⟨fun c hc => ?_, ?_⟩
    · rw [hm]
      exact (le_maxLen 0 _).2 _ (mem_ct_iff.mpr ⟨c, rfl⟩) hc
    · obtain h0 | ⟨e, he, hvalid, hlen⟩ := maxLen_attained 0 s.ct.toList
      · exact .inl (BitVec.eq_of_toNat_eq (hm.trans h0))
      · obtain ⟨c, rfl⟩ := mem_ct_iff.mp he
        exact .inr ⟨c, hvalid, hlen.trans hm.symm⟩

/-! ## CT_WORDw (10_state.md R47) -/

theorem word_getLsbD (e : CodeEntry) (w : Nat) {j : Nat} (hj : j < 32) :
    (e.word w).getLsbD (31 - j) = e.bit (32 * w + j) := by
  have hlen : 31 - j < 32 := by omega
  have hrev : 31 - (31 - j) = j := by omega
  simp [CodeEntry.word, hlen, hrev]

theorem readCodeWord_bits (w : Nat) {s : State} (hidle : s.busy = false) :
    ∃ rdata, readCodeWord w s = .next { s with resp := .read rdata false } ∧
      ∀ j, j < 32 → rdata.getLsbD (31 - j) =
        (decide (32 * w + j < (entryAt s.ct s.ctSel).len.toNat) &&
          (entryAt s.ct s.ctSel).code.getD (32 * w + j) false) :=
  ⟨_, readUnlessBusy_idle hidle _ _, fun _ hj => word_getLsbD _ w hj⟩

/-- Settles O15: each of the eight rows is `readCodeWord` of its number, whose word has bit 32w + j in
place 31 - j. -/
theorem codeWordReadsHold : Obligations.CodeWordReads := by
  intro w i hi
  have hrow : decode (readOf (0x60 + 4 * BitVec.ofNat 8 w)) = .ok i ∧ exec i = readCodeWord w := by
    obtain ⟨hw, rfl⟩ := List.getElem?_eq_some_iff.mp hi
    have hw' : w < 8 := hw
    interval_cases w <;> exact ⟨rfl, rfl⟩
  refine ⟨hrow.1, fun s hidle => ?_⟩
  rw [hrow.2]
  exact readCodeWord_bits w hidle

end Sys2Proof.Machine

/-! PROOFS, 20_memory.md: what decodes, what a step runs, and what a transaction spares while BUSY = 1. -/

namespace Sys2Proof.Machine

/-! ## What decodes (20_memory.md R78; 30_encoding.md R106, R111) -/

/-- A transaction decodes when its size and alignment are accepted and some row matches. -/
theorem decode_bus_ok_iff (x : BusTxn) : (∃ i, decode (.bus x) = .ok i) ↔
    x.size = .four ∧ x.offset.extractLsb' 0 2 = 0 ∧ ∃ r ∈ busRows, x.op &&& r.mask = r.pattern := by
  have hfind : (∃ r ∈ busRows, x.op &&& r.mask = r.pattern) ↔
      (busRows.find? fun r => x.op &&& r.mask == r.pattern).isSome := by simp
  rw [hfind]
  simp only [decode, decodeBus]
  split
  next hsize => simp [hsize]
  split
  next halign => simp [halign]
  next hsize halign =>
    cases busRows.find? fun r => x.op &&& r.mask == r.pattern <;> simp_all

/-- A command word decodes when some row matches. -/
theorem decode_cmd_ok_iff (w : Word) : (∃ i, decode (.cmd w) = .ok i) ↔
    ∃ r ∈ cmdRows, w &&& r.mask = r.pattern := by
  have hfind : (∃ r ∈ cmdRows, w &&& r.mask = r.pattern) ↔
      (cmdRows.find? fun r => w &&& r.mask == r.pattern).isSome := by simp
  rw [hfind]
  simp only [decode, decodeCmd]
  cases cmdRows.find? fun r => w &&& r.mask == r.pattern <;> simp

/-- The BUS rows split the operation codes of the aligned offsets among them (40_host_access.md R130). -/
theorem busRows_match_once (x : BusTxn) (h : x.offset.extractLsb' 0 2 = 0) :
    (busRows.filter (fun r => x.op &&& r.mask == r.pattern)).length = 1 := by
  have hrows : ∀ (b : Bool) (o : BitVec 8), o.extractLsb' 0 2 = 0 →
      (busRows.filter (fun r => (BitVec.ofBool b ++ o) &&& r.mask == r.pattern)).length = 1 := by
    decide
  exact hrows x.write x.offset h

/-- Some BUS row matches every aligned offset. -/
theorem busRows_match (x : BusTxn) (h : x.offset.extractLsb' 0 2 = 0) :
    ∃ r ∈ busRows, x.op &&& r.mask = r.pattern := by
  have hpos := (busRows_match_once x h).symm ▸ Nat.one_pos
  simpa using List.length_filter_pos_iff.mp hpos

/-- Every CMD row asks for RSVD = 0 (30_encoding.md R103). -/
theorem rsvd_of_cmdRow {w : Word} {r : CmdRow} (hr : r ∈ cmdRows) (h : w &&& r.mask = r.pattern) :
    w.extractLsb' 8 24 = 0 := by
  have hrows : cmdRows.all (fun r => r.mask.extractLsb' 8 24 == BitVec.allOnes 24 &&
      r.pattern.extractLsb' 8 24 == 0) = true := rfl
  have hrow := List.all_eq_true.mp hrows r hr
  simp only [Bool.and_eq_true, beq_iff_eq] at hrow
  obtain ⟨hmask, hpattern⟩ := hrow
  have hbits := congrArg (BitVec.extractLsb' 8 24) h
  rwa [BitVec.extractLsb'_and, hmask, hpattern, BitVec.and_allOnes] at hbits

/-- Some CMD row matches every opcode (30_encoding.md R106). -/
theorem cmdRows_match {w : Word} (h : w.extractLsb' 8 24 = 0) :
    ∃ r ∈ cmdRows, w &&& r.mask = r.pattern := by
  have hrows : ∀ op : BitVec 8, ∃ r ∈ cmdRows, (0#24 ++ op) &&& r.mask = r.pattern := by
    decide
  have hw : w.extractLsb' 8 24 ++ w.extractLsb' 0 8 = w := BitVec.extractLsb'_append_extractLsb'
  rw [h] at hw
  exact hw ▸ hrows (w.extractLsb' 0 8)

/-- Settles O3: a packet decodes when a row matches, the BUS rows match every aligned offset once, and the
CMD rows match the words with RSVD = 0. -/
theorem decoderRefusesExactlyTheMisshaped : Obligations.DecoderRefusesExactlyTheMisshaped := by
  refine ⟨fun x => ?_, fun w => ?_, busRows_match_once⟩
  · rw [decode_bus_ok_iff]
    exact ⟨fun ⟨hsize, halign, _⟩ => ⟨hsize, halign⟩,
      fun ⟨hsize, halign⟩ => ⟨hsize, halign, busRows_match x halign⟩⟩
  · rw [decode_cmd_ok_iff]
    exact ⟨fun ⟨_, hr, hmatch⟩ => rsvd_of_cmdRow hr hmatch, cmdRows_match⟩

/-! ## What a step runs (20_memory.md R85, R86) -/

/-- A transaction that decodes runs its instruction. -/
theorem hostStep_ok {x : BusTxn} {i : Instr} (h : decode (.bus x) = .ok i) (s : State) :
    hostStep x s = exec i s := by
  simp [hostStep, h]

/-- A pending command that decodes completes as its instruction. -/
theorem engineStep_ok {s : State} {i : Instr} (hb : s.busy = true)
    (h : decode (.cmd s.pending) = .ok i) : engineStep s = exec i s := by
  simp [engineStep, hb, h]

/-- The idle engine does nothing (notes/assumptions/5.md). -/
theorem engineStep_idle {s : State} (hb : s.busy = false) : engineStep s = .next s := by
  simp [engineStep, hb]

/-- Settles O5: the head of the event list names the agent that moves, and the agent's step runs what it
decodes. -/
theorem stepRunsTheDecodedInstruction : Obligations.StepRunsTheDecodedInstruction := by
  intro s rest i
  refine ⟨fun x he hdec => ?_, fun he hb hdec => ?_, fun he hb hdec => ?_, fun he hb => ?_,
    fun he hb => ?_⟩
  · exact (step_bus he).trans (hostStep_ok hdec _)
  · exact (step_complete he).trans (engineStep_ok (s := s.withEvents rest) hb hdec)
  · exact (step_empty he).trans (engineStep_ok hb hdec)
  · exact (step_complete he).trans (engineStep_idle (s := s.withEvents rest) hb)
  · exact (step_empty he).trans (engineStep_idle hb)

/-! ## What a transaction spares while BUSY = 1 (20_memory.md R88; 40_host_access.md R132 to R134) -/

/-- `t` is `s` but for what a transaction may change while BUSY = 1: the flags, the error record, IRQ_EN,
the response and the count of draws. -/
def SparesCommand (s t : State) : Prop :=
  t = { s with
    done := t.done, err := t.err, errCode := t.errCode, errInfo := t.errInfo
    errSym := t.errSym, busyViol := t.busyViol, irqEn := t.irqEn
    resp := t.resp, draws := t.draws }

theorem readUnlessBusy_spares {s after t : State} {v : Word} (hb : s.busy = true)
    (h : readUnlessBusy s v after = .next t) : SparesCommand s t := by
  rw [readUnlessBusy_busy hb] at h
  cases h
  rfl

theorem writeUnlessBusy_spares {s after t : State} (hb : s.busy = true)
    (h : writeUnlessBusy s after = .next t) : SparesCommand s t := by
  rw [writeUnlessBusy_busy hb] at h
  cases h
  rfl

/-- A STATUS write touches the flags and the error record only (40_host_access.md R141). -/
theorem w1c_spares (s : State) (v : Word) (r : Response) :
    SparesCommand s ((s.w1c v).respond r) := by
  simp [SparesCommand, State.respond]

/-- While BUSY = 1 only a command's completion changes more than `SparesCommand` allows: a register's one
update is not made. -/
theorem exec_busy_spares {i : Instr} {s t : State} (hb : s.busy = true) (h : exec i s = .next t) :
    (∃ r, CommandStage s i r) ∨ SparesCommand s t := by
  cases exec_effect h with
  | command hr => exact .inl ⟨_, hr⟩
  | quiet | rejected | wrIrqEn => exact .inr rfl
  | wrStatus v r => exact .inr (w1c_spares s v r)
  | wrCmd _ _ idle => exact absurd (hb.symm.trans idle) (by decide)
  | rdIbufData | rdObufData => exact .inr (readUnlessBusy_spares hb h)
  | wrInLen | wrIbufAddr | wrIbufData | wrObufAddr | wrFreqSel | wrFreqData | wrCtSel =>
    exact .inr (writeUnlessBusy_spares hb h)

/-- Settles O51: a transaction's instruction is no command, so while BUSY = 1 it spares the running one, and
a bus error changes only the response. -/
theorem transactionsSpareTheRunningCommand : Obligations.TransactionsSpareTheRunningCommand := by
  intro s t x rest hb he h
  rw [step_bus he] at h
  have hspares : SparesCommand (s.withEvents rest) t := by
    obtain ⟨i, hdec, hi⟩ | ⟨_, -, rfl⟩ := hostStep_cases h
    · exact (exec_busy_spares (s := s.withEvents rest) hb hi).resolve_left
        fun ⟨_, hr⟩ => decode_bus_not_command hdec hr
    · rfl
  exact hspares

end Sys2Proof.Machine

/-! PROOFS, 30_encoding.md: decoding and encoding are inverse to each other, and what follows for the words
and the writes the spec names. -/

namespace Sys2Proof.Machine

/-! ## Masks

Every mask of the opcode table keeps the high bits of a code and leaves its low `k` bits free; most rows
have `k = 0`. -/

/-- A code matches a row with `k` free bits when it is the row's high bits before its own low bits. -/
theorem and_highMask_eq_iff {n k : Nat} (w : BitVec (n + k)) (p : BitVec n) :
    w &&& (BitVec.allOnes n ++ 0#k) = p ++ 0#k ↔ p ++ w.extractLsb' 0 k = w := by
  have hw : w.extractLsb' k n ++ w.extractLsb' 0 k = w := BitVec.extractLsb'_append_extractLsb'
  generalize w.extractLsb' k n = high at hw
  generalize w.extractLsb' 0 k = low at hw ⊢
  subst hw
  rw [BitVec.and_append, BitVec.and_allOnes, BitVec.and_zero, BitVec.append_left_inj,
    BitVec.append_left_inj, eq_comm]

/-- The high bits of a row before any low bits match the row. -/
theorem append_and_highMask {n k : Nat} (p : BitVec n) (low : BitVec k) :
    (p ++ low) &&& (BitVec.allOnes n ++ 0#k) = p ++ 0#k := by
  rw [and_highMask_eq_iff, BitVec.extractLsb'_append_eq_right]

/-! ## The row that decodes a packet -/

/-- The CMD rows split the words with RSVD = 0 among them (30_encoding.md R106). -/
theorem cmdRows_match_once {w : Word} (h : w.extractLsb' 8 24 = 0) :
    (cmdRows.filter fun r => w &&& r.mask == r.pattern).length = 1 := by
  have hrows : ∀ op : BitVec 8,
      (cmdRows.filter fun r => (0#24 ++ op) &&& r.mask == r.pattern).length = 1 := by
    decide
  have hw : w.extractLsb' 8 24 ++ w.extractLsb' 0 8 = w := BitVec.extractLsb'_append_extractLsb'
  rw [h] at hw
  exact hw ▸ hrows (w.extractLsb' 0 8)

/-- The only member of a list with a property is the one `find?` finds. -/
theorem find?_eq_of_filter_length_one {α : Type} {p : α → Bool} {l : List α} {a : α}
    (hone : (l.filter p).length = 1) (ha : a ∈ l) (hp : p a = true) : l.find? p = some a := by
  obtain ⟨b, hb⟩ := List.length_eq_one_iff.mp hone
  have hab : a ∈ l.filter p := List.mem_filter.mpr ⟨ha, hp⟩
  rw [hb, List.mem_singleton] at hab
  rw [← List.head?_filter, hb, hab, List.head?_cons]

/-- A command word decodes to the instruction of the row it matches. -/
theorem decode_cmd_of_row {w : Word} {r : CmdRow} {i : Instr} (hr : r ∈ cmdRows)
    (hmatch : w &&& r.mask = r.pattern) (hi : r.make w = i) : decode (.cmd w) = .ok i := by
  have hfind := find?_eq_of_filter_length_one (cmdRows_match_once (rsvd_of_cmdRow hr hmatch)) hr
    (beq_iff_eq.mpr hmatch)
  simp only [decode, decodeCmd, hfind, hi]

/-- A transaction at an aligned offset decodes to the instruction of the row `find?` finds. -/
theorem decode_bus_of_find {b : Bool} {o : BitVec 8} {v : Word} {r : BusRow} {i : Instr}
    (halign : o.extractLsb' 0 2 = 0)
    (hfind : busRows.find? (fun r => (BitVec.ofBool b ++ o) &&& r.mask == r.pattern) = some r)
    (hi : r.make ⟨b, o, .four, v⟩ = i) : decode (.bus ⟨b, o, .four, v⟩) = .ok i := by
  simp [decode, decodeBus, BusTxn.op, halign, hfind, hi]

/-! ## The reserved offsets (30_encoding.md R107) -/

/-- An offset from 0x80 up is aligned when its low bits are. -/
theorem alignedLow_iff (low : BitVec 7) :
    alignedLow low = true ↔ (1#1 ++ low).extractLsb' 0 2 = 0 := by
  rw [BitVec.extractLsb'_append_eq_of_add_le (by decide)]
  exact beq_iff_eq

/-- A code with the top offset bit set, its direction and that bit taken together. -/
theorem reserved_assoc (p : BitVec 1) (low : BitVec 7) : p ++ (1#1 ++ low) = (p ++ 1#1) ++ low :=
  BitVec.append_assoc.symm

/-- What matches a reserved row has its direction, and an offset from 0x80 up. -/
theorem op_of_reserved {x : BusTxn} {p : BitVec 1}
    (h : x.op &&& (BitVec.allOnes 2 ++ 0#7) = (p ++ 1#1) ++ 0#7) :
    x.op = p ++ (1#1 ++ x.low) := by
  have hlow : x.op.extractLsb' 0 7 = x.low := BitVec.extractLsb'_append_eq_of_add_le (by decide)
  rw [reserved_assoc, ← hlow]
  exact ((and_highMask_eq_iff (n := 2) (k := 7) x.op (p ++ 1#1)).mp h).symm

/-- An aligned offset from 0x80 up decodes to its direction's reserved row. -/
theorem decode_reserved {b : Bool} {low : BitVec 7} {v : Word} {r : BusRow} {i : Instr}
    (halign : alignedLow low = true) (hr : r ∈ busRows) (hmask : r.mask = 0x180)
    (hpattern : r.pattern = BitVec.ofBool b ++ 0x80#8)
    (hi : r.make ⟨b, 1#1 ++ low, .four, v⟩ = i) :
    decode (.bus ⟨b, 1#1 ++ low, .four, v⟩) = .ok i := by
  have hoffset := (alignedLow_iff low).mp halign
  have hmatch : (BitVec.ofBool b ++ (1#1 ++ low)) &&& r.mask = r.pattern := by
    rw [hmask, hpattern, reserved_assoc]
    exact (append_and_highMask (BitVec.ofBool b ++ 1#1) low).trans (reserved_assoc _ 0#7).symm
  exact decode_bus_of_find hoffset (find?_eq_of_filter_length_one
    (busRows_match_once ⟨b, 1#1 ++ low, .four, v⟩ hoffset) hr (beq_iff_eq.mpr hmatch)) hi

/-! ## Decoding an encoded instruction -/

/-- Settles O1: an instruction's packet matches its row, which reads the free bits back. -/
theorem decodeOfEncodeIsTheInstruction : Obligations.DecodeOfEncodeIsTheInstruction := by
  intro i hi
  cases i with
  | nop | clrf | count | build | gen | pack | encode | srst => rfl
  | illegal08 low =>
    exact decode_cmd_of_row (List.mem_of_getElem? (i := 8) rfl) (append_and_highMask 1#29 low)
      (congrArg Instr.illegal08 BitVec.extractLsb'_append_eq_right)
  | illegal10 low =>
    exact decode_cmd_of_row (List.mem_of_getElem? (i := 9) rfl) (append_and_highMask 1#28 low)
      (congrArg Instr.illegal10 BitVec.extractLsb'_append_eq_right)
  | illegal20 low =>
    exact decode_cmd_of_row (List.mem_of_getElem? (i := 10) rfl) (append_and_highMask 1#27 low)
      (congrArg Instr.illegal20 BitVec.extractLsb'_append_eq_right)
  | illegal40 low =>
    exact decode_cmd_of_row (List.mem_of_getElem? (i := 11) rfl) (append_and_highMask 1#26 low)
      (congrArg Instr.illegal40 BitVec.extractLsb'_append_eq_right)
  | illegal80 low =>
    exact decode_cmd_of_row (List.mem_of_getElem? (i := 12) rfl) (append_and_highMask 1#25 low)
      (congrArg Instr.illegal80 BitVec.extractLsb'_append_eq_right)
  | rdRsvd80 low =>
    exact decode_reserved hi (List.mem_of_getElem? (i := 32) rfl) rfl rfl
      (congrArg Instr.rdRsvd80 BitVec.extractLsb'_append_eq_right)
  | wrRsvd80 low v =>
    exact decode_reserved hi (List.mem_of_getElem? (i := 65) rfl) rfl rfl
      (congrArg (Instr.wrRsvd80 · v) BitVec.extractLsb'_append_eq_right)
  | _ => exact decode_bus_of_find rfl rfl rfl

/-! ## Encoding what a packet decodes to -/

/-- A command word decodes to the instruction of a row it matches. -/
theorem decode_cmd_row_match {w : Word} {i : Instr} (h : decode (.cmd w) = .ok i) :
    ∃ r ∈ cmdRows, w &&& r.mask = r.pattern ∧ r.make w = i := by
  obtain ⟨r, hr, hmatch⟩ := (decode_cmd_ok_iff w).mp ⟨i, h⟩
  exact ⟨r, hr, hmatch, Except.ok.inj ((decode_cmd_of_row hr hmatch rfl).symm.trans h)⟩

/-- A word that matches a CMD row is the word of the row's instruction. -/
theorem cmdRow_encode {w : Word} : ∀ r ∈ cmdRows, w &&& r.mask = r.pattern →
    encode (r.make w) = .cmd w := by
  have hexact {p : Word} (h : w &&& BitVec.allOnes 32 = p) : Packet.cmd p = .cmd w := by
    rw [← h, BitVec.and_allOnes]
  simp only [cmdRows, List.forall_mem_cons]
  exact ⟨hexact, hexact, hexact, hexact, hexact, hexact, hexact, hexact,
    fun h => congrArg Packet.cmd ((and_highMask_eq_iff (n := 29) (k := 3) w 1).mp h),
    fun h => congrArg Packet.cmd ((and_highMask_eq_iff (n := 28) (k := 4) w 1).mp h),
    fun h => congrArg Packet.cmd ((and_highMask_eq_iff (n := 27) (k := 5) w 1).mp h),
    fun h => congrArg Packet.cmd ((and_highMask_eq_iff (n := 26) (k := 6) w 1).mp h),
    fun h => congrArg Packet.cmd ((and_highMask_eq_iff (n := 25) (k := 7) w 1).mp h), by simp⟩

/-- Every CMD row's instruction is well formed. -/
theorem cmdRow_wellFormed {r : CmdRow} (hr : r ∈ cmdRows) (w : Word) :
    (r.make w).wellFormed = true := by
  have hrows : cmdRows.all (fun r => (r.make w).wellFormed) = true := rfl
  exact List.all_eq_true.mp hrows r hr

/-- The transaction of an operation code; a read carries no write data (30_encoding.md R101, R109). -/
def packetOfOp (op : BitVec 9) (v : Word) : Packet :=
  .bus ⟨op.msb, op.extractLsb' 0 8, .four, if op.msb then v else 0⟩

theorem packetOfOp_append (b : Bool) (o : BitVec 8) (v : Word) :
    packetOfOp (BitVec.ofBool b ++ o) v = .bus ⟨b, o, .four, if b then v else 0⟩ := by
  have hmsb : (BitVec.ofBool b ++ o).msb = b := BitVec.msb_append.trans (by simp)
  have hoffset : (BitVec.ofBool b ++ o).extractLsb' 0 8 = o := BitVec.extractLsb'_append_eq_right
  rw [packetOfOp, hmsb, hoffset]

/-- A BUS row's instruction is encoded as the row's operation code, with the free bits of the transaction. -/
theorem busRow_encode {x : BusTxn} {r : BusRow} (hr : r ∈ busRows)
    (hmatch : x.op &&& r.mask = r.pattern) : encode (r.make x) = packetOfOp x.op x.wdata := by
  have hexact : (busRows.filter (·.mask == 0x1FF)).map (fun r => encode (r.make x)) =
      (busRows.filter (·.mask == 0x1FF)).map (fun r => packetOfOp r.pattern x.wdata) := rfl
  have hreserved : busRows.filter (·.mask != 0x1FF) =
      [⟨"RD.RSVD80", 0x180, 0x080, fun x => .rdRsvd80 x.low⟩,
        ⟨"WR.RSVD80", 0x180, 0x180, fun x => .wrRsvd80 x.low x.wdata⟩] := rfl
  by_cases hmask : (r.mask == 0x1FF) = true
  · rw [List.map_inj_left.mp hexact r (List.mem_filter.mpr ⟨hr, hmask⟩), ← hmatch,
      beq_iff_eq.mp hmask]
    exact congrArg (packetOfOp · x.wdata) BitVec.and_allOnes
  · have hmem : r ∈ busRows.filter (·.mask != 0x1FF) :=
      List.mem_filter.mpr ⟨hr, by simpa using hmask⟩
    rw [hreserved, List.mem_pair] at hmem
    obtain rfl | rfl := hmem
    · rw [op_of_reserved (p := BitVec.ofBool false) hmatch, packetOfOp_append]
      rfl
    · rw [op_of_reserved (p := BitVec.ofBool true) hmatch, packetOfOp_append]
      rfl

/-- At an aligned offset a BUS row's instruction is well formed: a reserved row's free bits are aligned. -/
theorem busRow_wellFormed {x : BusTxn} {r : BusRow} (hr : r ∈ busRows)
    (halign : x.offset.extractLsb' 0 2 = 0) : (r.make x).wellFormed = true := by
  have hrows : busRows.map (fun r => (r.make x).wellFormed) =
      busRows.map (fun r => r.mask == 0x1FF || alignedLow x.low) := rfl
  have hlow : ∀ o : BitVec 8, o.extractLsb' 0 2 = 0 → alignedLow (o.extractLsb' 0 7) = true := by
    decide
  rw [List.map_inj_left.mp hrows r hr, BusTxn.low, hlow _ halign, Bool.or_true]

/-- Settles O2: what decodes matches its instruction's row, and a row's instruction is encoded as the code
that matched. -/
theorem encodeOfDecodeIsThePacket : Obligations.EncodeOfDecodeIsThePacket := by
  refine ⟨fun w i h => ?_, fun x i h => ?_⟩
  · obtain ⟨r, hr, hmatch, rfl⟩ := decode_cmd_row_match h
    exact ⟨cmdRow_wellFormed hr w, cmdRow_encode r hr hmatch⟩
  · obtain ⟨hsize, halign, -⟩ := (decode_bus_ok_iff x).mp ⟨i, h⟩
    obtain ⟨r, hr, hmatch, rfl⟩ := decode_bus_row h
    refine ⟨busRow_wellFormed hr halign, ?_⟩
    rw [busRow_encode hr hmatch, BusTxn.op, packetOfOp_append, ← hsize]

/-! ## The words the spec names -/

/-- Settles O4: each word is the packet of its instruction. -/
theorem specWordsDecode : Obligations.SpecWordsDecode :=
  have h := decodeOfEncodeIsTheInstruction
  ⟨h .nop rfl, h .encode rfl, h (.illegal80 0x7F) rfl, h .rdStatus rfl, h (.wrInLen 6) rfl,
    h (.wrRsvd80 0x7C 0xFFFFFFFF) rfl⟩

/-- Settles O27: each row's word is its packet, and its meaning is the completion with ILLEGAL_CMD. -/
theorem illegalRowsComplete : Obligations.IllegalRowsComplete :=
  have h := decodeOfEncodeIsTheInstruction
  ⟨fun low => ⟨h (.illegal08 low) rfl, fun _ => (CommandStage.illegal08 low).exec_eq⟩,
    fun low => ⟨h (.illegal10 low) rfl, fun _ => (CommandStage.illegal10 low).exec_eq⟩,
    fun low => ⟨h (.illegal20 low) rfl, fun _ => (CommandStage.illegal20 low).exec_eq⟩,
    fun low => ⟨h (.illegal40 low) rfl, fun _ => (CommandStage.illegal40 low).exec_eq⟩,
    fun low => ⟨h (.illegal80 low) rfl, fun _ => (CommandStage.illegal80 low).exec_eq⟩⟩

/-! ## The WDATA bits a register takes (30_encoding.md R105) -/

theorem addrField_toNat (aw : Nat) (v : Word) : (addrField aw v).toNat = v.toNat % 2 ^ aw := by
  rw [addrField, BitVec.toNat_ofNat]
  exact Nat.mod_eq_of_lt ((Nat.mod_le _ _).trans_lt v.isLt)

theorem lowByte_eq (v : Word) : lowByte v = v.extractLsb' 0 8 :=
  BitVec.setWidth_eq_extractLsb' (by decide)

/-- Settles O21: the idle write's law for each of the five, with the field each takes. -/
theorem registerWrites : Obligations.RegisterWrites := by
  intro s v hidle
  have h := decodeOfEncodeIsTheInstruction
  refine ⟨h (.wrInLen v) rfl, h (.wrIbufAddr v) rfl, h (.wrObufAddr v) rfl, h (.wrFreqSel v) rfl,
    h (.wrCtSel v) rfl, writeUnlessBusy_idle hidle _,
    ⟨_, addrField_toNat _ v, writeUnlessBusy_idle hidle _⟩,
    ⟨_, addrField_toNat _ v, writeUnlessBusy_idle hidle _⟩, ?_, ?_⟩
  · rw [← lowByte_eq]
    exact writeUnlessBusy_idle hidle _
  · rw [← lowByte_eq]
    exact writeUnlessBusy_idle hidle _

end Sys2Proof.Machine

/-! PROOFS, 40_host_access.md: the bus error, and what each read and write of the host answers and
changes. -/

namespace Sys2Proof.Machine

/-! ## The bus error (R131) -/

/-- A transaction that stands for no instruction ends with the error response and nothing else. -/
theorem hostStep_busError {x : BusTxn} (h : ¬ ∃ i, decode (.bus x) = .ok i) (s : State) :
    hostStep x s = .next (s.busError x) := by
  unfold hostStep
  split
  next i hdec => exact absurd ⟨i, hdec⟩ h
  next => rfl

/-- Settles O6: a misshaped transaction does not decode. -/
theorem busErrorChangesNothing : Obligations.BusErrorChangesNothing := by
  intro s x rest he hbad
  have hdec : ¬ ∃ i, decode (.bus x) = .ok i := fun h =>
    have ⟨hsize, halign, _⟩ := (decode_bus_ok_iff x).mp h
    hbad.elim (· hsize) (· halign)
  exact (step_bus he).trans (hostStep_busError hdec _)

/-! ## Reads (R134 to R169) -/

theorem ibufBytes_le (p : Config.Params) : p.ibufBytes ≤ 2 ^ 28 := by
  have := p.ibufAwLess4.isLt
  exact Nat.pow_le_pow_right (by decide) (by unfold Config.Params.ibufAw; omega)

/-- A number no larger than a capacity can be (00_scope.md R9) fits in a word. -/
theorem toNat_word_of_le {n : Nat} (h : n ≤ 2 ^ 28) : (BitVec.ofNat 32 n).toNat = n :=
  (BitVec.toNat_ofNat n 32).trans (Nat.mod_eq_of_lt (h.trans_lt (by decide)))

/-- Settles O10: four exact reads, and a capacity is the number its word holds. -/
theorem identityReads : Obligations.IdentityReads := by
  have h := decodeOfEncodeIsTheInstruction
  refine ⟨h .rdId rfl, h .rdVersion rfl, h .rdCapIbuf rfl, h .rdCapObuf rfl, fun s => ?_⟩
  exact ⟨readExact_eq s _, readExact_eq s _,
    ⟨_, toNat_word_of_le (ibufBytes_le s.params), readExact_eq s _⟩,
    ⟨_, toNat_word_of_le (obufBytes_le s.params), readExact_eq s _⟩⟩

/-- Settles O11: twelve exact reads, each of its register's value with zeros above it. -/
theorem exactReads : Obligations.ExactReads := by
  have h := decodeOfEncodeIsTheInstruction
  have hbyte (s : State) (b : Byte) :
      readExact s (byteWord b) = .next { s with resp := .read (0#24 ++ b) false } := by
    rw [readExact_eq, byteWord_eq]
  have hirqEn (s : State) : s.irqEn.setWidth 32 = 0#29 ++ s.irqEn :=
    BitVec.setWidth_eq_append (v := 3) (by decide)
  refine ⟨h .rdCmd rfl, h .rdIrqEn rfl, h .rdErrCode rfl, h .rdErrInfo rfl, h .rdErrSym rfl,
    h .rdInLen rfl, h .rdIbufAddr rfl, h .rdObufAddr rfl, h .rdFreqSel rfl, h .rdCtSel rfl,
    h .rdRsvd5c rfl, fun low hlow => h (.rdRsvd80 low) (beq_iff_eq.mpr hlow), fun s => ?_⟩
  exact ⟨readExact_eq s 0, (readExact_eq s _).trans (by rw [hirqEn]), hbyte s _, readExact_eq s _,
    hbyte s _, readExact_eq s _, readExact_eq s _, readExact_eq s _, hbyte s _, hbyte s _,
    readExact_eq s 0, fun _ => readExact_eq s 0⟩

/-- NSYM is the number of entries of FREQ that are not 0 (10_state.md R43). -/
theorem nsym_toNat (s : State) : s.nsym.toNat =
    (List.range 256).countP (fun c => entryAt s.freq (BitVec.ofNat 8 c) ≠ 0) := by
  calc s.nsym.toNat
    _ = alphabetSize s.freq := toNat_word_of_le ((alphabetSize_le s.freq).trans (by decide))
    _ = allSymbols.countP (fun c => entryAt s.freq c ≠ 0) := List.countP_eq_length_filter.symm
    _ = _ := List.countP_map

/-- Settles O13: four reads while BUSY = 0. -/
theorem resultReads : Obligations.ResultReads := by
  have h := decodeOfEncodeIsTheInstruction
  refine ⟨h .rdOutBytes rfl, h .rdOutBits rfl, h .rdFreqData rfl, h .rdNsym rfl, fun s hidle => ?_⟩
  exact ⟨readUnlessBusy_idle hidle _ s, readUnlessBusy_idle hidle _ s,
    readUnlessBusy_idle hidle _ s, s.nsym, readUnlessBusy_idle hidle _ s, nsym_toNat s⟩

/-- Each read of `DRAW_WHILE_BUSY` has the shared meaning of such a read (R134). -/
theorem exec_drawWhileBusy {i : Instr} (hi : i ∈ drawWhileBusy) (s : State) :
    ∃ v after, exec i s = readUnlessBusy s v after := by
  fin_cases hi <;> exact ⟨_, _, rfl⟩

/-- Settles O17: while BUSY = 1 such a read answers a draw, and its side effect is not made. -/
theorem busyReadsReturnDraws : Obligations.BusyReadsReturnDraws := by
  intro s hbusy i hi
  obtain ⟨v, after, hexec⟩ := exec_drawWhileBusy hi s
  exact ⟨_, hexec.trans (readUnlessBusy_busy hbusy v after)⟩

/-! ## Writes that are ignored or rejected (R133, R170, R171) -/

/-- A list of writes, each at the offset of its encoding, decodes. -/
theorem decode_writes {v : Word} {l : List (BitVec 8 × Instr)}
    (h : l.map (fun p => (encode p.2, p.2.wellFormed)) = l.map (fun p => (writeOf p.1 v, true)))
    {p : BitVec 8 × Instr} (hp : p ∈ l) : decode (writeOf p.1 v) = .ok p.2 := by
  obtain ⟨hencode, hwf⟩ := Prod.mk.inj (List.map_inj_left.mp h p hp)
  exact hencode ▸ decodeOfEncodeIsTheInstruction p.2 hwf

/-- Each write to a read-only register is taken with no effect (R170). -/
theorem exec_readOnlyWrites {v : Word} {p : BitVec 8 × Instr} (hp : p ∈ readOnlyWrites v)
    (s : State) : exec p.2 s = writeTaken s := by
  fin_cases hp <;> rfl

/-- Settles O18: each of these writes is taken and leaves the state as it is. -/
theorem ignoredWritesChangeNothing : Obligations.IgnoredWritesChangeNothing := by
  intro s v
  have h := decodeOfEncodeIsTheInstruction
  refine ⟨fun p hp => ⟨decode_writes rfl hp, ?_⟩, h (.wrRsvd5c v) rfl, writeTaken_eq s,
    fun low hlow => h (.wrRsvd80 low v) (beq_iff_eq.mpr hlow), fun _ => writeTaken_eq s⟩
  exact (exec_readOnlyWrites hp s).trans (writeTaken_eq s)

/-- Each write of `BUSY_SENSITIVE` has the shared meaning of such a write (R132, R133). -/
theorem exec_busySensitive {v : Word} {p : BitVec 8 × Instr} (hp : p ∈ busySensitive v)
    (s : State) : ∃ after, exec p.2 s = writeUnlessBusy s after := by
  fin_cases hp <;> exact ⟨_, rfl⟩

/-- Settles O19: while BUSY = 1 such a write is rejected, and BUSY_VIOL raises the line when enabled. -/
theorem busyWritesAreRejected : Obligations.BusyWritesAreRejected := by
  intro s v hbusy p hp
  obtain ⟨after, hexec⟩ := exec_busySensitive hp s
  exact ⟨decode_writes rfl hp, _, hexec.trans (writeUnlessBusy_busy hbusy after), rfl,
    fun hbv => (irq_iff _).mpr (.inr (.inr ⟨rfl, hbv⟩))⟩

/-! ## STATUS, IRQ_EN and IBUF_DATA writes (R141, R144, R153) -/

/-- Settles O22: the fields a STATUS write clears, and those it leaves. -/
theorem statusWriteClears : Obligations.StatusWriteClears := by
  intro s v
  refine ⟨decodeOfEncodeIsTheInstruction (.wrStatus v) rfl, ?_⟩
  have hclear (b c : Bool) : (if c then false else b) = (b && !c) := by cases b <;> cases c <;> rfl
  have hexec : exec (.wrStatus v) s = .next { s.w1c v with resp := .write false } :=
    writeTaken_eq _
  rw [hexec]
  simp [hclear]

/-- Settles O23: the enables are the low bits of `v`, and the line follows R62. -/
theorem irqEnableWrite : Obligations.IrqEnableWrite := by
  intro s v
  have hfield : irqField v = v.extractLsb' 0 3 := BitVec.setWidth_eq_extractLsb' (by decide)
  refine ⟨decodeOfEncodeIsTheInstruction (.wrIrqEn v) rfl, _, writeTaken_eq _, ?_, ?_⟩
  · rw [hfield]
  · rw [irq_iff, hfield]
    simp

/-- Settles O25: the idle write's law, a memory's read after a write, and the address's advance. -/
theorem inputByteWrite : Obligations.InputByteWrite := by
  intro s v hidle
  refine ⟨decodeOfEncodeIsTheInstruction (.wrIbufData v) rfl, _, writeUnlessBusy_idle hidle _, rfl,
    nextAddr_toNat (aw_le s.params).1 s.ibufAddr, ?_, fun a ha => ?_⟩
  · exact (Memory.readByte_write _ _ _ _).trans ((if_pos rfl).trans (lowByte_eq v))
  · exact (Memory.readByte_write _ _ _ _).trans (if_neg ha.symm)

end Sys2Proof.Machine

/-! PROOFS, 41_command_control.md: acceptance, the control commands, and that a completion comes. -/

namespace Sys2Proof.Machine

/-! ## Acceptance and SRST (R180, R186) -/

/-- Settles O20: the idle write's law, with the state `accept` leaves. -/
theorem commandAcceptance : Obligations.CommandAcceptance := by
  intro s w hidle
  refine ⟨decodeOfEncodeIsTheInstruction (.wrCmd w) rfl, ?_⟩
  rw [← lowByte_eq]
  exact writeUnlessBusy_idle hidle _

/-- After SRST only DONE and LAST_OP show in STATUS. -/
theorem statusWord_srst {s : State} (h : s.lastOp = 0x07) :
    (complete (stageSrst s)).statusWord = 0x00000702 := by
  simp [State.statusWord, stageSrst, flagWord, h]

/-- Settles O26: SRST's stage and its completion write the fields named, and with IRQ_EN = 0 the line is
low. -/
theorem softReset : Obligations.SoftReset := by
  refine ⟨decodeOfEncodeIsTheInstruction .srst rfl, fun s => ⟨?_, fun hbusy => ?_⟩⟩
  · refine ⟨_, CommandStage.srst.exec_eq, rfl, irq_of_disabled rfl, fun hlast => ?_⟩
    rw [← statusWord_srst hlast]
    exact readExact_eq _ _
  · exact writeUnlessBusy_busy hbusy _

/-! ## A completion comes (R183) -/

/-- Every instruction has a next state. -/
theorem exec_next (i : Instr) (s : State) : ∃ t, exec i s = .next t :=
  (exec_nextInRun i s).imp fun _ h => h.1

/-- A host transaction has a next state, whatever it decodes to. -/
theorem hostStep_next (x : BusTxn) (s : State) : ∃ t, hostStep x s = .next t := by
  unfold hostStep
  split
  next i _ => exact exec_next i s
  next => exact ⟨_, rfl⟩

/-- The engine's step has a next state, busy or not. -/
theorem engineStep_next (s : State) : ∃ t, engineStep s = .next t := by
  unfold engineStep
  split
  · split
    next i _ => exact exec_next i s
    next => exact ⟨_, rfl⟩
  · exact ⟨_, rfl⟩

/-- Every state has a next one (60_exceptions.md R325, R328). -/
theorem step_next (s : State) : ∃ t, step s = .next t := by
  unfold step
  cases (nextEvent s).1 with
  | bus x => exact hostStep_next x _
  | complete => exact engineStep_next _
  | reset => exact ⟨_, rfl⟩

/-- A run begins with one step. -/
theorem core_run_succ {s t : State} (h : step s = .next t) (n : Nat) :
    core.run (n + 1) s = core.run n t := by
  have hcore : core.step s = .next t := h
  simp only [Host.Core.run, hcore]

/-- Settles O9: each step takes one listed event, and with none left the engine's step leaves it idle. -/
theorem pendingCommandCompletes : Obligations.PendingCommandCompletes := by
  intro s
  induction hl : s.events generalizing s with
  | nil =>
    obtain ⟨t, ht⟩ := step_next s
    have hevents : t.events = s.events.tail := (step_sameRun ht).events
    obtain ⟨hidle, -⟩ := engineStep_sequencing ((step_empty hl).symm.trans ht)
    exact ⟨t, core_run_succ ht 0, hidle, by rw [hevents, hl, List.tail_nil]⟩
  | cons e rest ih =>
    obtain ⟨t, ht⟩ := step_next s
    have hevents : t.events = s.events.tail := (step_sameRun ht).events
    rw [List.length_cons, core_run_succ ht]
    exact ih t (by rw [hevents, hl, List.tail_cons])

/-! ## Illegal words (R187) -/

/-- A command word is the word of what it decodes to. -/
theorem encode_of_decode_cmd {w : Word} {i : Instr} (h : decode (.cmd w) = .ok i) :
    encode i = .cmd w :=
  (encodeOfDecodeIsThePacket.1 w i h).2

/-- A word with OPCODE 0x08..0xFF or RSVD ≠ 0 that decodes is the word of an illegal row. -/
theorem stage_of_illegalWord {s : State} {w : Word} {i : Instr} {r : Stage}
    (hr : CommandStage s i r) (hdec : decode (.cmd w) = .ok i)
    (hbad : 8 ≤ (w.extractLsb' 0 8).toNat ∨ w.extractLsb' 8 24 ≠ 0) : r = stageIllegal s := by
  have hw : encode i = .cmd w := encode_of_decode_cmd hdec
  cases hr with
  | illegal08 | illegal10 | illegal20 | illegal40 | illegal80 => rfl
  | _ => cases hw; exact absurd hbad (by decide)

/-- The engine completes such a word with ILLEGAL_CMD, whether or not a row matches it. -/
theorem engineStep_illegal {s : State} (hb : s.busy = true)
    (hbad : 8 ≤ (s.pending.extractLsb' 0 8).toNat ∨ s.pending.extractLsb' 8 24 ≠ 0) :
    engineStep s = .next (complete (stageIllegal s)) := by
  obtain ⟨t, ht⟩ := engineStep_next s
  rw [ht]
  obtain ⟨-, i, hdec, hi⟩ | ⟨-, _, -, rfl⟩ | ⟨hidle, -⟩ := engineStep_cases ht
  · obtain ⟨r, hr⟩ := decode_cmd_commandStage hdec s
    rw [← hi, hr.exec_eq, stage_of_illegalWord hr hdec hbad]
  · rfl
  · exact absurd (hb.symm.trans hidle) (by decide)

/-- Settles O28: the step is the engine's, on the state without the completion event. -/
theorem illegalWordsComplete : Obligations.IllegalWordsComplete := by
  intro s rest he hb hbad
  exact (step_complete he).trans (engineStep_illegal (s := s.withEvents rest) hb hbad)

end Sys2Proof.Machine

/-! PROOFS, 46_encode_pipeline.md R303, 41_command_control.md R182: COUNT, BUILD and GEN do not fail within
ENCODE, so a command's error is one of its row. -/

namespace Sys2Proof.Machine

/-! ## COUNT (42_frequency_counter.md R202, R205) -/

/-- COUNT counts each symbol. -/
theorem entryAt_countBytes (ibuf : Memory Byte) (n : Nat) (c : Byte) :
    entryAt (countBytes ibuf n) c =
      BitVec.ofNat 32 (((List.range n).map ibuf.readByte).count c) := by
  induction n with
  | zero => exact entryAt_zeroFreq c
  | succ n ih =>
    have hlast : entryAt (countBytes ibuf (n + 1)) c =
        entryAt (bumpFreq (countBytes ibuf n) (ibuf.readByte n)) c := by
      simp [countBytes, List.range_succ]
    rw [hlast, bumpFreq, entryAt_setEntry, List.range_succ, List.map_append, List.count_append]
    by_cases hc : ibuf.readByte n = c
    · rw [if_pos hc, hc, ih]
      simp [hc, BitVec.ofNat_add]
    · rw [if_neg hc, ih]
      simp [hc]

/-- No count wraps while there are fewer than 2^32 bytes. -/
theorem entryAt_countBytes_toNat (ibuf : Memory Byte) {n : Nat} (hn : n < 2 ^ 32) (c : Byte) :
    (entryAt (countBytes ibuf n) c).toNat = ((List.range n).map ibuf.readByte).count c := by
  have hle : ((List.range n).map ibuf.readByte).count c ≤ n := by
    simpa using List.count_le_length (a := c) (l := (List.range n).map ibuf.readByte)
  rw [entryAt_countBytes, BitVec.toNat_ofNat, Nat.mod_eq_of_lt (hle.trans_lt hn)]

theorem allSymbols_nodup : allSymbols.Nodup :=
  List.nodup_range.map_on fun a ha b hb h => by
    have hmod : a % 256 = b % 256 := by simpa using congrArg BitVec.toNat h
    rwa [Nat.mod_eq_of_lt (List.mem_range.mp ha), Nat.mod_eq_of_lt (List.mem_range.mp hb)] at hmod

/-- Over a list of every symbol, the numbers of occurrences sum to the length. -/
theorem sum_count_eq_length {l : List Byte} (hl : l.Nodup) (hall : ∀ c, c ∈ l) (xs : List Byte) :
    (l.map fun c => xs.count c).sum = xs.length := by
  rw [← List.sum_toFinset _ hl]
  simpa using Multiset.sum_count_eq_card (m := (xs : Multiset Byte))
    fun c _ => List.mem_toFinset.mpr (hall c)

theorem totalCount_countBytes (ibuf : Memory Byte) {n : Nat} (hn : n < 2 ^ 32) :
    totalCount (countBytes ibuf n) = n := by
  have hcounts := List.map_congr_left (l := allSymbols)
    fun c _ => entryAt_countBytes_toNat ibuf hn c
  rw [totalCount, hcounts, sum_count_eq_length allSymbols_nodup mem_allSymbols, List.length_map,
    List.length_range]

/-! ## The leaves of a tree (10_state.md R63; 44_code_table_generator.md R251, R256) -/

/-- A node's child is where one more bit leads. -/
theorem mem_children {node : Memory Node} {x y : Nat} : y ∈ children node x ↔
    ∃ w l r, node.readNode x = .internal w l r ∧ ∃ b : Bool, y = if b then r.toNat else l.toNat := by
  unfold children
  cases hx : node.readNode x <;> simp [or_comm]

/-- A node that is as R63 says has smaller children. -/
theorem child_lt_of_internalOk {node : Memory Node} {x y : Nat} (h : internalOk node x = true)
    (hy : y ∈ children node x) : y < x := by
  obtain ⟨w, l, r, hx, b, rfl⟩ := mem_children.mp hy
  simp only [internalOk, hx, Bool.and_eq_true, decide_eq_true_eq] at h
  obtain ⟨⟨hl, hr⟩, -⟩ := h
  cases b
  · exact hl
  · exact hr

section Tree

variable {freq : Vector Word 256} {node : Memory Node} {root : BitVec 9} {nnodes : BitVec 10}

/-- Every node but the root is the child of an internal node above it. -/
theorem TreeOf.exists_parent (h : TreeOf freq node root nnodes) {y : Nat}
    (hy : y < 2 * alphabetSize freq - 2) : ∃ z, y ∈ children node z ∧ y < z ∧
      alphabetSize freq ≤ z ∧ z < 2 * alphabetSize freq - 1 := by
  obtain ⟨z, hz, hmem⟩ :=
    List.mem_flatMap.mp (h.parents.mem_iff.mpr (List.mem_range.mpr hy))
  rw [List.mem_range] at hz
  have hinternal : alphabetSize freq ≤ z := by
    by_contra hlt
    have hleaves : LeavesAre freq node (presentSymbols freq) := h.leaves
    have hnil := List.flatMap_eq_nil_iff.mp hleaves.no_children z
      (List.mem_range.mpr (Nat.lt_of_not_le hlt))
    simp [hnil] at hmem
  exact ⟨z, hmem, child_lt_of_internalOk (h.internals z hinternal hz) hmem, hinternal, hz⟩

/-- A path leads from the root to every node. The indices fall along it and all but its end are internal,
so it is no longer than the number of internal nodes from the root down to that index. -/
theorem TreeOf.exists_path (h : TreeOf freq node root nnodes) {y : Nat}
    (hy : y < 2 * alphabetSize freq - 1) : ∃ p, follow node root.toNat p = some (node.readNode y) ∧
      p.length + max y (alphabetSize freq - 1) ≤ 2 * alphabetSize freq - 2 := by
  induction hd : 2 * alphabetSize freq - 1 - y using Nat.strong_induction_on generalizing y with
  | _ d ih =>
    by_cases hroot : y = 2 * alphabetSize freq - 2
    · refine ⟨[], by rw [follow, h.rootIndex, hroot], ?_⟩
      have := h.nonempty
      simp only [List.length_nil]
      omega
    · obtain ⟨z, hmem, hlt, hinternal, hz⟩ := h.exists_parent (y := y) (by omega)
      obtain ⟨w, l, r, hnode, b, rfl⟩ := mem_children.mp hmem
      obtain ⟨p, hp, hlen⟩ := ih _ (by omega) hz rfl
      refine ⟨p ++ [b], follow_concat (hp.trans (congrArg some hnode)) b, ?_⟩
      rw [List.length_append, List.length_singleton]
      omega

/-- A path of at most `k - 1` bits leads to the leaf of every symbol of the alphabet. -/
theorem TreeOf.exists_leafPath (h : TreeOf freq node root nnodes) {c : Byte}
    (hc : entryAt freq c ≠ 0) : ∃ p, follow node root.toNat p = some (.leaf c (entryAt freq c)) ∧
      p.length ≤ alphabetSize freq - 1 := by
  have hleaf := List.mem_map_of_mem (f := fun c => Node.leaf c (entryAt freq c))
    ((mem_presentSymbols freq c).mpr hc)
  rw [← h.leaves] at hleaf
  obtain ⟨y, hy, hnode⟩ := List.mem_map.mp hleaf
  rw [List.mem_range] at hy
  obtain ⟨p, hp, hlen⟩ := h.exists_path (y := y) (by omega)
  exact ⟨p, hp.trans (congrArg some hnode), by omega⟩

end Tree

/-! ## GEN (44_code_table_generator.md R252) -/

theorem entryAt_setEntry_valid {ct : Vector CodeEntry 256} {c d : Byte} {p : List Bool}
    (h : d = c ∨ (entryAt ct c).valid = true) :
    (entryAt (setEntry ct d (.ofPath p)) c).valid = true := by
  rw [entryAt_setEntry]
  split
  · rfl
  · exact h.resolve_left ‹_›

/-- `Walk` takes no code away. -/
theorem walk_keeps_valid {node : Memory Node} {fuel : Nat} {x : BitVec 9} {p : List Bool}
    {ct : Vector CodeEntry 256} {c : Byte} (h : (entryAt ct c).valid = true) :
    (entryAt (walk node fuel x p ct) c).valid = true := by
  induction fuel generalizing x p ct with
  | zero => exact h
  | succ fuel ih =>
    unfold walk
    cases node.readNode x.toNat with
    | leaf d w => exact entryAt_setEntry_valid (.inr h)
    | internal w l r => exact ih (ih h)

/-- `Walk` gives a code to every symbol whose leaf is nearer than `fuel`. -/
theorem walk_reaches {node : Memory Node} {fuel : Nat} {x : BitVec 9} {p q : List Bool}
    {ct : Vector CodeEntry 256} {c : Byte} {w : Word}
    (hq : follow node x.toNat q = some (.leaf c w)) (hlen : q.length < fuel) :
    (entryAt (walk node fuel x p ct) c).valid = true := by
  induction fuel generalizing x p q ct with
  | zero => exact absurd hlen (Nat.not_lt_zero _)
  | succ fuel ih =>
    unfold walk
    cases q with
    | nil =>
      rw [Option.some.inj hq]
      exact entryAt_setEntry_valid (.inl rfl)
    | cons b q =>
      have hlen' : q.length < fuel := Nat.lt_of_succ_lt_succ hlen
      cases hx : node.readNode x.toNat with
      | leaf d w' => simp [follow, hx] at hq
      | internal w' l r =>
        cases b with
        | false => exact walk_keeps_valid (ih (by simpa [follow, hx] using hq) hlen')
        | true => exact ih (by simpa [follow, hx] using hq) hlen'

/-- On a tree over FREQ every symbol of the alphabet gets a code (44_code_table_generator.md R254). -/
theorem TreeOf.treeCodes_valid {freq : Vector Word 256} {node : Memory Node} {root : BitVec 9}
    {nnodes : BitVec 10} (h : TreeOf freq node root nnodes) {c : Byte} (hc : entryAt freq c ≠ 0) :
    (entryAt (treeCodes node root) c).valid = true := by
  obtain ⟨p, hp, hlen⟩ := h.exists_leafPath hc
  have hle := alphabetSize_le freq
  unfold treeCodes
  cases hroot : node.readNode root.toNat with
  | leaf d w =>
    cases p with
    | nil =>
      cases hroot.symm.trans (Option.some.inj hp)
      exact entryAt_setEntry_valid (.inl rfl)
    | cons b p => simp [follow, hroot] at hp
  | internal w l r => exact walk_reaches hp (by omega)

/-! ## PACK (45_bit_packer.md R273) -/

/-- CODEBOOK_MISS names a byte without a code. -/
theorem packFrom_codebookMiss {s : State} {n i : Nat} {k : PackState} {e : CmdError}
    (h : packFrom s n i k = .error e) (hname : e.name = .codebookMiss) :
    (entryAt s.ct e.sym).valid = false := by
  induction n generalizing i k with
  | zero => cases h
  | succ n ih =>
    unfold packFrom at h
    simp only at h
    split at h
    · cases h
      assumption
    · split at h
      · cases h
        cases hname
      · exact ih h

/-! ## ENCODE -/

/-- BUILD does not fail on the counts of a COUNT that succeeded, unless they are all 0: they sum to
IN_LEN, which is below 2^32. -/
theorem stageBuild_after_count {s s₁ : State} (h₁ : stageCount s = (s₁, .ok))
    (hk : alphabetSize s₁.freq ≠ 0) :
    (stageBuild s₁).2 = .ok ∧ (stageBuild s₁).1.treeValid = true := by
  obtain ⟨-, h⟩ | ⟨-, h⟩ := stageCount_cases s <;> cases h₁.symm.trans h
  have htotal := totalCount_countBytes s.ibuf s.inLen.isLt
  have hbuild := stageBuild_succeeds hk (htotal.trans_lt s.inLen.isLt)
  exact ⟨by rw [hbuild], by rw [hbuild]⟩

/-- GEN does not fail where there is a tree. -/
theorem stageGen_of_treeValid {s : State} (hvalid : s.treeValid = true) :
    stageGen s = ({ s with ct := treeCodes s.node s.root }, .ok) := by
  obtain ⟨hinvalid, -⟩ | ⟨-, h⟩ := stageGen_cases s
  · exact absurd (hvalid.symm.trans hinvalid) (by decide)
  · exact h

/-- After COUNT, BUILD and GEN every input byte has a code (46_encode_pipeline.md R303). -/
theorem encode_codes_input {s s₁ s₂ s₃ : State} (h₁ : stageCount s = (s₁, .ok))
    (hk : alphabetSize s₁.freq ≠ 0) (h₂ : stageBuild s₁ = (s₂, .ok)) (h₃ : stageGen s₂ = (s₃, .ok))
    {x : Byte} (hx : x ∈ inputBytes s) : (entryAt s₃.ct x).valid = true := by
  have hvalid : s₂.treeValid = true := by simpa [h₂] using (stageBuild_after_count h₁ hk).2
  have htree : TreeOf s₂.freq s₂.node s₂.root s₂.nnodes := by
    simpa [h₂] using stageBuild_treeOk s₁ (by simpa [h₂] using hvalid)
  have hfreq : s₂.freq = s₁.freq := by
    obtain ⟨-, -, hsame, -⟩ := stageBuild_same s₁
    rwa [h₂] at hsame
  have hcount : (entryAt s₁.freq x).toNat = (inputBytes s).count x := by
    obtain ⟨-, h⟩ | ⟨-, h⟩ := stageCount_cases s <;> cases h₁.symm.trans h
    exact entryAt_countBytes_toNat s.ibuf s.inLen.isLt x
  have hpresent : entryAt s₂.freq x ≠ 0 := fun h0 => by
    rw [hfreq] at h0
    rw [h0] at hcount
    exact (List.count_pos_iff.mpr hx).ne hcount
  cases h₃.symm.trans (stageGen_of_treeValid hvalid)
  exact htree.treeCodes_valid hpresent

/-! ## What each stage's error is (60_exceptions.md R320, R321) -/

theorem stageCount_error {s : State} {e : CmdError} (h : (stageCount s).2 = .err e) :
    e.name = .lenRange := by
  obtain ⟨-, hs⟩ | ⟨-, hs⟩ := stageCount_cases s <;> rw [hs] at h <;> cases h
  rfl

theorem stageBuild_error {s : State} {e : CmdError} (h : (stageBuild s).2 = .err e) :
    e.name = .emptyMap ∨ e.name = .weightOverflow := by
  obtain ⟨-, hs⟩ | ⟨_, -, -, hs⟩ | ⟨_, -, -, hs⟩ := stageBuild_cases s <;> rw [hs] at h <;> cases h
  · exact .inl rfl
  · exact .inr rfl

theorem stageGen_error {s : State} {e : CmdError} (h : (stageGen s).2 = .err e) :
    e.name = .noTree := by
  obtain ⟨-, hs⟩ | ⟨-, hs⟩ := stageGen_cases s <;> rw [hs] at h <;> cases h
  rfl

/-- PACK's CODEBOOK_MISS names an input byte without a code. -/
theorem stagePack_error {s : State} {e : CmdError} (h : (stagePack s).2 = .err e) :
    e.name = .lenRange ∨ e.name = .obufOverflow ∨
      (e.name = .codebookMiss ∧ e.sym ∈ inputBytes s ∧ (entryAt s.ct e.sym).valid = false) := by
  obtain ⟨-, hs⟩ | ⟨e', -, he, hs⟩ | ⟨_, -, -, hs⟩ := stagePack_cases s <;> rw [hs] at h <;> cases h
  · exact .inl rfl
  · obtain ⟨j, -, hj, -, hsym, hname | hname⟩ := packFrom_error he
    · refine .inr (.inr ⟨hname, ?_, packFrom_codebookMiss he hname⟩)
      exact List.mem_map.mpr ⟨j, List.mem_range.mpr (by omega), hsym.symm⟩
    · exact .inr (.inl hname)

/-- ENCODE fails only on the length of its input or of its output (46_encode_pipeline.md R303). -/
theorem stageEncode_error {s : State} {e : CmdError} (h : (stageEncode s).2 = .err e) :
    e.name = .lenRange ∨ e.name = .obufOverflow := by
  obtain ⟨s₁, e₁, h₁, hs⟩ | ⟨s₁, -, -, hs⟩ | ⟨s₁, s₂, e₂, h₁, hk, h₂, -⟩ |
    ⟨s₁, s₂, s₃, e₃, h₁, hk, h₂, h₃, -⟩ | ⟨s₁, s₂, s₃, h₁, hk, h₂, h₃, hs⟩ := stageEncode_cases s
  · rw [hs] at h
    exact .inl (stageCount_error (by rw [h₁]; exact h))
  · rw [hs] at h
    cases h
  · have hok := (stageBuild_after_count h₁ hk).1
    rw [h₂] at hok
    cases hok
  · have hvalid : s₂.treeValid = true := by simpa [h₂] using (stageBuild_after_count h₁ hk).2
    cases h₃.symm.trans (stageGen_of_treeValid hvalid)
  · rw [hs] at h
    have hinput : inputBytes s₃ = inputBytes s := by
      have hcount := stageCount_same s
      have hbuild := stageBuild_same s₁
      have hgen := stageGen_same s₂
      simp only [h₁, h₂, h₃] at hcount hbuild hgen
      simp [inputBytes, hcount, hbuild, hgen]
    obtain hname | hname | ⟨-, hmem, hinvalid⟩ := stagePack_error h
    · exact .inl hname
    · exact .inr hname
    · rw [hinput] at hmem
      exact absurd (encode_codes_input h₁ hk h₂ h₃ hmem) (by simp [hinvalid])

/-! ## A command's error and its row (R182; 60_exceptions.md R321, R324) -/

/-- The table of R321: the errors of each row. -/
inductive RowError : Instr → ErrName → Prop where
  | countLength : RowError .count .lenRange
  | buildEmpty : RowError .build .emptyMap
  | buildWeight : RowError .build .weightOverflow
  | genTree : RowError .gen .noTree
  | packLength : RowError .pack .lenRange
  | packCode : RowError .pack .codebookMiss
  | packOutput : RowError .pack .obufOverflow
  | encodeLength : RowError .encode .lenRange
  | encodeOutput : RowError .encode .obufOverflow
  | illegal08 (low : BitVec 3) : RowError (.illegal08 low) .illegalCmd
  | illegal10 (low : BitVec 4) : RowError (.illegal10 low) .illegalCmd
  | illegal20 (low : BitVec 5) : RowError (.illegal20 low) .illegalCmd
  | illegal40 (low : BitVec 6) : RowError (.illegal40 low) .illegalCmd
  | illegal80 (low : BitVec 7) : RowError (.illegal80 low) .illegalCmd

/-- A command that ends with an error ends with one of its row. -/
theorem CommandStage.rowError {s : State} {i : Instr} {r : Stage} (hr : CommandStage s i r)
    {e : CmdError} (he : r.2 = .err e) : RowError i e.name := by
  cases hr with
  | nop | clrf | srst => cases he
  | count => exact stageCount_error he ▸ .countLength
  | build =>
    obtain h | h := stageBuild_error he
    · exact h ▸ .buildEmpty
    · exact h ▸ .buildWeight
  | gen => exact stageGen_error he ▸ .genTree
  | pack =>
    obtain h | h | ⟨h, -⟩ := stagePack_error he
    · exact h ▸ .packLength
    · exact h ▸ .packOutput
    · exact h ▸ .packCode
  | encode =>
    obtain h | h := stageEncode_error he
    · exact h ▸ .encodeLength
    · exact h ▸ .encodeOutput
  | illegal08 low => cases he; exact .illegal08 low
  | illegal10 low => cases he; exact .illegal10 low
  | illegal20 low => cases he; exact .illegal20 low
  | illegal40 low => cases he; exact .illegal40 low
  | illegal80 low => cases he; exact .illegal80 low

/-- `t` has the error record of `s`. -/
def SameRecord (s t : State) : Prop :=
  t.err = s.err ∧ t.errCode = s.errCode ∧ t.errInfo = s.errInfo ∧ t.errSym = s.errSym

/-- No stage but SRST's touches the error record; an error is recorded by the completion. -/
theorem CommandStage.sameRecord {s : State} {i : Instr} {r : Stage} (hr : CommandStage s i r)
    (hi : i ≠ .srst) : SameRecord s r.1 := by
  cases hr with
  | srst => exact absurd rfl hi
  | encode =>
    exact stageEncode_keeps (P := SameRecord s) (by simp [SameRecord]) (by simp [SameRecord])
      (by simp [SameRecord]) (by simp [SameRecord]) (fun _ h => h) (fun _ h => h) s
      ⟨rfl, rfl, rfl, rfl⟩
  | _ => simp [SameRecord, stageNop, stageClrf, stageIllegal]

/-- The bits of a word after a leading 1 make it at least 8 when there are three or more. -/
theorem eight_le_one_append {n k : Nat} (hk : 3 ≤ k) (hn : 0 < n) (low : BitVec k) :
    8 ≤ (1#n ++ low).toNat := by
  have hone : (1#n).toNat = 1 :=
    (BitVec.toNat_ofNat 1 n).trans (Nat.mod_eq_of_lt (Nat.one_lt_two_pow hn.ne'))
  rw [BitVec.toNat_append, hone, Nat.one_shiftLeft]
  exact (Nat.pow_le_pow_right two_pos hk).trans Nat.left_le_or

/-- The words of the illegal rows are 8 or more. -/
theorem eight_le_illegalWord {w : Word} {i : Instr} (hdec : decode (.cmd w) = .ok i)
    (hi : RowError i .illegalCmd) : 8 ≤ w.toNat := by
  have hw : encode i = .cmd w := encode_of_decode_cmd hdec
  cases hi with
  | illegal08 low => cases hw; exact eight_le_one_append (k := 3) (by decide) (by decide) low
  | illegal10 low => cases hw; exact eight_le_one_append (k := 4) (by decide) (by decide) low
  | illegal20 low => cases hw; exact eight_le_one_append (k := 5) (by decide) (by decide) low
  | illegal40 low => cases hw; exact eight_le_one_append (k := 6) (by decide) (by decide) low
  | illegal80 low => cases hw; exact eight_le_one_append (k := 7) (by decide) (by decide) low

/-- Settles O50: a completion with no error leaves the record its stage kept, and one with an error records
an error of the row. -/
theorem commandErrorsFollowTheTable : Obligations.CommandErrorsFollowTheTable := by
  intro s t w i hdec ht
  obtain ⟨r, hr⟩ := decode_cmd_commandStage hdec s
  cases hr.exec_eq.symm.trans ht
  obtain ⟨hidle, hdone⟩ := complete_idle r
  refine ⟨hidle, hdone, or_iff_not_imp_left.mpr fun hi => ?_⟩
  obtain ⟨-, herr, hcode, hinfo, hsym⟩ | ⟨e, he, herr, hcode, -⟩ := complete_record r
  · left
    rw [herr, hcode, hinfo, hsym]
    exact hr.sameRecord hi
  · right
    refine ⟨herr, ?_⟩
    have hrow := hr.rowError he
    rw [hcode]
    generalize e.name = n at hrow
    have hword (hn : n = .illegalCmd) : 8 ≤ w.toNat := eight_le_illegalWord hdec (hn ▸ hrow)
    cases hrow with
    | illegal08 | illegal10 | illegal20 | illegal40 | illegal80 =>
      simp [ErrName.code, hword rfl]
    | _ => simp [ErrName.code]

end Sys2Proof.Machine

/-! PROOFS, 42_frequency_counter.md: NOP, CLRF, and what COUNT makes of FREQ. -/

namespace Sys2Proof.Machine

/-! ## The input (45_bit_packer.md R270) -/

theorem toNat_eq_zero_iff (w : Word) : w.toNat = 0 ↔ w = 0 :=
  BitVec.toNat_inj (y := 0)

@[simp] theorem inputBytes_length (s : State) : (inputBytes s).length = s.inLen.toNat := by
  simp [inputBytes]

/-- There is no input byte exactly when IN_LEN = 0. -/
theorem inputBytes_eq_nil_iff (s : State) : inputBytes s = [] ↔ s.inLen = 0 := by
  rw [← List.length_eq_zero_iff, inputBytes_length, toNat_eq_zero_iff]

/-- The input is what PACK's loop reads, from index 0. -/
theorem inputBytes_eq_range' (s : State) :
    inputBytes s = (List.range' 0 s.inLen.toNat).map s.ibuf.readByte := by
  rw [inputBytes, List.range_eq_range']

/-! ## The counts of the input (42_frequency_counter.md R202, R205) -/

/-- The table COUNT makes holds the numbers of occurrences in the input. -/
theorem entryAt_countBytes_input (s : State) (c : Byte) :
    (entryAt (countBytes s.ibuf s.inLen.toNat) c).toNat = (inputBytes s).count c :=
  entryAt_countBytes_toNat s.ibuf s.inLen.isLt c

theorem entryAt_countBytes_ne_zero_iff (s : State) (c : Byte) :
    entryAt (countBytes s.ibuf s.inLen.toNat) c ≠ 0 ↔ c ∈ inputBytes s := by
  rw [← List.count_pos_iff, ← entryAt_countBytes_input, Nat.pos_iff_ne_zero, ne_eq, ne_eq,
    toNat_eq_zero_iff]

/-- The alphabet is empty exactly when there is no input byte (42_frequency_counter.md R204, R205). -/
theorem alphabetSize_countBytes_eq_zero_iff (s : State) :
    alphabetSize (countBytes s.ibuf s.inLen.toNat) = 0 ↔ s.inLen = 0 := by
  rw [alphabetSize, List.length_eq_zero_iff, ← inputBytes_eq_nil_iff]
  simp only [List.eq_nil_iff_forall_not_mem, mem_presentSymbols, entryAt_countBytes_ne_zero_iff]

/-- Two tables with the same entry for every symbol are the same table. -/
theorem table_ext {α : Type} {t u : Vector α 256} (h : ∀ c, entryAt t c = entryAt u c) : t = u := by
  ext i hi
  simpa [entryAt, Nat.mod_eq_of_lt hi] using h (BitVec.ofNat 8 i)

/-! ## COUNT with IN_LEN in range (R202) -/

theorem stageCount_inRange {s : State} (hrange : s.inLen.toNat ≤ s.params.ibufBytes) :
    stageCount s =
      ({ s with freq := countBytes s.ibuf s.inLen.toNat, treeValid := false }, .ok) := by
  obtain ⟨hout, -⟩ | ⟨-, h⟩ := stageCount_cases s
  · exact absurd hrange (Nat.not_le_of_lt hout)
  · exact h

/-- The whole next state of COUNT. -/
theorem exec_count_inRange {s : State} (hrange : s.inLen.toNat ≤ s.params.ibufBytes) :
    exec .count s = .next { s with
      freq := countBytes s.ibuf s.inLen.toNat, treeValid := false, busy := false, done := true } := by
  rw [CommandStage.count.exec_eq, stageCount_inRange hrange]
  rfl

theorem freq_of_exec_count {s t : State} (hrange : s.inLen.toNat ≤ s.params.ibufBytes)
    (ht : exec .count s = .next t) : t.freq = countBytes s.ibuf s.inLen.toNat := by
  cases (exec_count_inRange hrange).symm.trans ht
  rfl

/-- Settles O30: the stages of NOP and CLRF, completed. -/
theorem nopAndClearComplete : Obligations.NopAndClearComplete :=
  have h := decodeOfEncodeIsTheInstruction
  ⟨h .nop rfl, h .clrf rfl, fun _ => CommandStage.nop.exec_eq, fun _ => CommandStage.clrf.exec_eq⟩

/-- Settles O31: COUNT's next state, and that no count wraps because IN_LEN has 32 bits. -/
theorem countMakesTheHistogram : Obligations.CountMakesTheHistogram :=
  ⟨decodeOfEncodeIsTheInstruction .count rfl, fun s hrange =>
    ⟨_, exec_count_inRange hrange, rfl, entryAt_countBytes_input s⟩⟩

/-- Settles O32: the numbers of occurrences over all symbols sum to the length of the input. -/
theorem countsSumToTheLength : Obligations.CountsSumToTheLength := by
  intro s t hrange ht
  rw [freq_of_exec_count hrange ht]
  exact ⟨totalCount_countBytes s.ibuf s.inLen.isLt, entryAt_countBytes_ne_zero_iff s,
    alphabetSize_countBytes_eq_zero_iff s⟩

/-- Settles O33: the counts are the numbers of occurrences, and a permutation keeps those. -/
theorem countIgnoresTheOrder : Obligations.CountIgnoresTheOrder := by
  intro s₁ s₂ t₁ t₂ hrange₁ hrange₂ hperm ht₁ ht₂
  rw [freq_of_exec_count hrange₁ ht₁, freq_of_exec_count hrange₂ ht₂]
  refine table_ext fun c => BitVec.eq_of_toNat_eq ?_
  rw [entryAt_countBytes_input, entryAt_countBytes_input, hperm.count_eq]

end Sys2Proof.Machine

/-! PROOFS, 46_encode_pipeline.md R300 to R303: ENCODE of the empty input, and what ENCODE of another input
hands to PACK and gets from it. -/

namespace Sys2Proof.Machine

/-! ## The empty input (R301) -/

/-- With IN_LEN = 0 the COUNT stage leaves the empty map, and ENCODE ends there. -/
theorem stageEncode_empty {s : State} (hlen : s.inLen = 0) :
    stageEncode s =
      (State.emptyResult { s with freq := zeroFreq, treeValid := false }, .ok) := by
  have hzero : s.inLen.toNat = 0 := (toNat_eq_zero_iff s.inLen).mpr hlen
  have hempty : countBytes s.ibuf s.inLen.toNat = zeroFreq := by rw [hzero]; rfl
  have hcount := stageCount_inRange (s := s) (by omega)
  have hk := (alphabetSize_countBytes_eq_zero_iff s).mpr hlen
  rw [hempty] at hcount hk
  simp [stageEncode, hcount, hk]

/-- Settles O46: the completion of the empty result. -/
theorem encodeOfTheEmptyInput : Obligations.EncodeOfTheEmptyInput := by
  refine ⟨decodeOfEncodeIsTheInstruction .encode rfl, fun s hlen => ?_⟩
  rw [CommandStage.encode.exec_eq, stageEncode_empty hlen]
  rfl

/-! ## What PACK is handed (R300, R303) -/

/-- `u` is a state ENCODE can hand to PACK when it started in `s`: COUNT, BUILD and GEN are done. -/
structure ReadyToPack (s u : State) : Prop where
  input     : inputBytes u = inputBytes s
  params    : u.params = s.params
  range     : u.inLen.toNat ≤ u.params.ibufBytes
  treeValid : u.treeValid = true
  tree      : TreeOf u.freq u.node u.root u.nnodes
  freq      : ∀ c, (entryAt u.freq c).toNat = (inputBytes s).count c
  codes     : ∀ x ∈ inputBytes s, (entryAt u.ct x).valid = true

/-- An ENCODE whose first three stages succeed ends as PACK does. -/
theorem stageEncode_of_stages {s s₁ s₂ s₃ : State} (h₁ : stageCount s = (s₁, .ok))
    (hk : alphabetSize s₁.freq ≠ 0) (h₂ : stageBuild s₁ = (s₂, .ok))
    (h₃ : stageGen s₂ = (s₃, .ok)) : stageEncode s = stagePack s₃ := by
  simp [stageEncode, h₁, hk, h₂, h₃]

/-- An input that is not empty and in range gets as far as PACK. -/
theorem stageEncode_readyToPack {s : State} (hlen : s.inLen ≠ 0)
    (hrange : s.inLen.toNat ≤ s.params.ibufBytes) :
    ∃ u, ReadyToPack s u ∧ stageEncode s = stagePack u := by
  have h₁ := stageCount_inRange hrange
  have hk := (alphabetSize_countBytes_eq_zero_iff s).not.mpr hlen
  obtain ⟨hok, hvalid⟩ := stageBuild_after_count h₁ hk
  have h₂ : stageBuild _ = (_, .ok) := Prod.ext rfl hok
  have h₃ := stageGen_of_treeValid hvalid
  refine ⟨_, ?_, stageEncode_of_stages h₁ hk h₂ h₃⟩
  exact {
    input := by simp [inputBytes]
    params := by simp
    range := by simpa using hrange
    treeValid := hvalid
    tree := stageBuild_treeOk _ hvalid
    freq := by simpa using entryAt_countBytes_input s
    codes := fun x => encode_codes_input h₁ hk h₂ h₃ }

/-! ## How far PACK gets (45_bit_packer.md R272, R273) -/

theorem codeStream_cons_length (ct : Vector CodeEntry 256) (x : Byte) (xs : List Byte) :
    (codeStream ct (x :: xs)).length = (entryAt ct x).len.toNat + (codeStream ct xs).length := by
  simp [codeStream]

/-- When PACK's loop ends, it has emitted the whole bit-stream. -/
theorem packFrom_ok_length {s : State} {n i : Nat} {k k' : PackState}
    (h : packFrom s n i k = .ok k') :
    k'.p = k.p + (codeStream s.ct ((List.range' i n).map s.ibuf.readByte)).length := by
  induction n generalizing i k with
  | zero =>
    cases h
    rfl
  | succ n ih =>
    unfold packFrom at h
    simp only at h
    split at h
    · cases h
    · split at h
      · cases h
      · rw [ih h, pushCode, foldl_pushBit_p, CodeEntry.bits_length, List.range'_succ, List.map_cons,
          codeStream_cons_length, Nat.add_assoc]

/-- OBUF_OVERFLOW means that the bit-stream is longer than OBUF. -/
theorem packFrom_overflow_length {s : State} {n i : Nat} {k : PackState} {e : CmdError}
    (h : packFrom s n i k = .error e) (hname : e.name = .obufOverflow) :
    8 * s.params.obufBytes <
      k.p + (codeStream s.ct ((List.range' i n).map s.ibuf.readByte)).length := by
  induction n generalizing i k with
  | zero => cases h
  | succ n ih =>
    rw [List.range'_succ, List.map_cons, codeStream_cons_length, ← Nat.add_assoc]
    unfold packFrom at h
    simp only at h
    split at h
    · cases h
      cases hname
    · split at h
      · exact Nat.lt_add_right _ ‹_›
      · have hrest := ih h
        rwa [pushCode, foldl_pushBit_p, CodeEntry.bits_length] at hrest

/-- PACK of input bytes that all have codes makes the output when the bit-stream fits in OBUF, and fails
with OBUF_OVERFLOW when it does not. -/
theorem stagePack_of_codes {s : State} (hrange : s.inLen.toNat ≤ s.params.ibufBytes)
    (hcodes : ∀ x ∈ inputBytes s, (entryAt s.ct x).valid = true) :
    ((codeStream s.ct (inputBytes s)).length ≤ 8 * s.params.obufBytes ∧ (stagePack s).2 = .ok ∧
        (stagePack s).1.outValid = true ∧
        (stagePack s).1.outBits.toNat = (codeStream s.ct (inputBytes s)).length) ∨
      (8 * s.params.obufBytes < (codeStream s.ct (inputBytes s)).length ∧
        ∃ e, e.name = .obufOverflow ∧ stagePack s = (s.losePacked, .err e)) := by
  obtain ⟨hout, -⟩ | ⟨e, -, he, hs⟩ | ⟨k, -, hk, hs⟩ := stagePack_cases s
  · exact absurd hrange (Nat.not_le_of_lt hout)
  · obtain ⟨j, -, hj, -, hsym, hmiss | hname⟩ := packFrom_error he
    · have hmem : e.sym ∈ inputBytes s :=
        List.mem_map.mpr ⟨j, List.mem_range.mpr (by omega), hsym.symm⟩
      exact absurd (hcodes _ hmem) (by simp [packFrom_codebookMiss he hmiss])
    · have hlong := packFrom_overflow_length he hname
      rw [← inputBytes_eq_range', Nat.zero_add] at hlong
      exact .inr ⟨hlong, e, hname, hs⟩
  · have hlength := packFrom_ok_length hk
    rw [← inputBytes_eq_range', Nat.zero_add] at hlength
    have hfits : k.p ≤ 8 * s.params.obufBytes := packFrom_fits (Nat.zero_le _) hk
    have := obufBytes_le s.params
    have hbits : (BitVec.ofNat 32 k.p).toNat = k.p :=
      (BitVec.toNat_ofNat k.p 32).trans (Nat.mod_eq_of_lt (by omega))
    rw [hs, ← hlength]
    exact .inl ⟨hfits, rfl, rfl, hbits⟩

/-- Settles O48: ENCODE ends as PACK does on a state that is ready to pack, and its stages keep the error
record. -/
theorem encodeOnlyOverflows : Obligations.EncodeOnlyOverflows := by
  intro s hlen hrange
  obtain ⟨u, hu, hs⟩ := stageEncode_readyToPack hlen hrange
  have hrecord : SameRecord s (stagePack u).1 := hs ▸ CommandStage.encode.sameRecord (by decide)
  have hpack := stagePack_of_codes hu.range (hu.input ▸ hu.codes)
  rw [hu.input, hu.params] at hpack
  refine ⟨complete (stagePack u), hs ▸ CommandStage.encode.exec_eq, ?_⟩
  simp only [complete_same, stagePack_same]
  refine ⟨hu.treeValid, hu.tree, hu.freq, hu.codes, ?_⟩
  obtain ⟨hfits, hok, hvalid, hbits⟩ | ⟨hlong, e, hname, he⟩ := hpack
  · obtain ⟨-, herr, hcode, hinfo, hsym⟩ | ⟨e, he, -⟩ := complete_record (stagePack u)
    · refine ⟨fun _ => ⟨hvalid, hbits, ?_⟩, fun hlong => absurd hfits (Nat.not_le_of_lt hlong)⟩
      rw [herr, hcode, hinfo, hsym]
      exact hrecord
    · cases hok.symm.trans he
  · refine ⟨fun hfits => absurd hfits (Nat.not_le_of_lt hlong), fun _ => ?_⟩
    rw [he]
    exact ⟨rfl, rfl, rfl, rfl, congrArg ErrName.code hname⟩

end Sys2Proof.Machine

/-! PROOFS, 43_tree_builder.md R221 to R223: the order in which the queue is taken, and the members each merge of
BUILD joins. -/

namespace Sys2Proof.Machine

/-! ## The key order (R222) -/

section KeyOrder

variable {node : Memory Node} {x y z : Nat}

theorem keyLt_iff : keyLt node x y = true ↔ keyBelow node x y := by
  simp [keyLt, keyBelow]

theorem keyBelow_asymm (h : keyBelow node x y) : ¬ keyBelow node y x := by
  unfold keyBelow at *
  omega

theorem keyBelow_trans (h : keyBelow node x y) (h' : keyBelow node y z) : keyBelow node x z := by
  unfold keyBelow at *
  omega

theorem keyBelow_cotrans (h : keyBelow node x z) (y : Nat) :
    keyBelow node x y ∨ keyBelow node y z := by
  unfold keyBelow at *
  omega

theorem keyBelow_of_not_below (h : ¬ keyBelow node y x) (hne : y ≠ x) : keyBelow node x y := by
  unfold keyBelow at *
  omega

end KeyOrder

/-! ## The queue (R221) -/

/-- The scan for the smallest key goes on with the smaller of its first two members. -/
theorem minKey_cons_cons (node : Memory Node) (m z : Nat) (zs : List Nat) :
    minKey node (m :: z :: zs) = minKey node ((if keyLt node z m then z else m) :: zs) := rfl

/-- No member of the queue lies below the scan's answer. -/
theorem not_keyBelow_minKey (node : Memory Node) {y m : Nat} {ys : List Nat} (hy : y ∈ m :: ys) :
    ¬ keyBelow node y (minKey node (m :: ys)) := by
  induction ys generalizing m y with
  | nil =>
    obtain rfl : y = m := List.mem_singleton.mp hy
    exact fun h => keyBelow_asymm h h
  | cons z zs ih =>
    rw [minKey_cons_cons]
    split
    · rename_i hz
      obtain rfl | hy := List.mem_cons.mp hy
      · exact fun h => ih List.mem_cons_self (keyBelow_trans (keyLt_iff.mp hz) h)
      · exact ih hy
    · rename_i hz
      obtain rfl | hy : y = z ∨ y ∈ m :: zs :=
        List.mem_cons.mp ((List.Perm.swap z m zs).mem_iff.mp hy)
      · have hm : ¬ keyBelow node m (minKey node (m :: zs)) := ih List.mem_cons_self
        exact fun h => (keyBelow_cotrans h m).elim (keyLt_iff.not.mp hz) hm
      · exact ih hy

/-- `extractMin` answers the smallest key. -/
theorem extractMin_keyBelow (node : Memory Node) {pq : List Nat} {y : Nat} (hy : y ∈ pq)
    (hne : y ≠ (extractMin node pq).1) : keyBelow node (extractMin node pq).1 y := by
  cases pq with
  | nil => exact absurd hy List.not_mem_nil
  | cons x xs => exact keyBelow_of_not_below (not_keyBelow_minKey node hy) hne

/-- Settles O36: the scan's answer is a member, and no member has a smaller key. -/
theorem extractMinTakesTheSmallestKey : Obligations.ExtractMinTakesTheSmallestKey :=
  fun node _ h => ⟨minKey_mem node h, fun _ hy hne => extractMin_keyBelow node hy hne,
    extractMin_perm node h⟩

/-- A successful merge joins the two smallest members of a queue without duplicates, the smaller one left
(R223). -/
theorem merge_ok_smallest {m m' : MergeState} (hlen : 2 ≤ m.pq.length) (hnodup : m.pq.Nodup)
    (he : merge m = .ok m') : ∃ a b q w, m.pq.Perm (a :: b :: q) ∧ m' = m.joined a b q w ∧
      keyBelow m.node a b ∧ ∀ y ∈ q, keyBelow m.node b y := by
  have h₁ := extractMin_perm m.node (pq := m.pq) (List.ne_nil_of_length_pos (by omega))
  have hlen₁ := h₁.length_eq
  rw [List.length_cons] at hlen₁
  have h₂ := extractMin_perm m.node (pq := (extractMin m.node m.pq).2)
    (List.ne_nil_of_length_pos (by omega))
  have hperm := h₁.trans (h₂.cons _)
  have hmem := h₂.mem_iff.mpr List.mem_cons_self
  obtain ⟨ha, hbq⟩ := List.nodup_cons.mp (hperm.nodup_iff.mp hnodup)
  obtain ⟨hb, -⟩ := List.nodup_cons.mp hbq
  unfold merge at he
  simp only at he
  split at he
  · cases he
  · cases he
    refine ⟨_, _, _, _, hperm, rfl, ?_, fun y hy => ?_⟩
    · exact extractMin_keyBelow m.node (h₁.mem_iff.mpr (List.mem_cons_of_mem _ hmem))
        (fun h => ha (h ▸ List.mem_cons_self))
    · exact extractMin_keyBelow m.node (h₂.mem_iff.mpr (List.mem_cons_of_mem _ hy))
        (fun h => hb (h ▸ hy))

/-! ## What depends only on the entries below an index -/

/-- Two node tables have the same entries below an index. -/
def AgreeBelow (n : Nat) (node node' : Memory Node) : Prop :=
  ∀ x, x < n → node.readNode x = node'.readNode x

theorem agreeBelow_write (node : Memory Node) (i : Nat) (n : Node) :
    AgreeBelow i node (node.write i n) := fun x hx => by
  rw [Memory.readNode_write, if_neg (Nat.ne_of_gt hx)]

section AgreeBelow

variable {node node' : Memory Node} {n x y : Nat}

theorem AgreeBelow.symm (h : AgreeBelow n node node') : AgreeBelow n node' node :=
  fun x hx => (h x hx).symm

theorem AgreeBelow.weightAt_eq (h : AgreeBelow n node node') (hx : x < n) :
    weightAt node x = weightAt node' x := by
  rw [weightAt, weightAt, h x hx]

theorem AgreeBelow.children_eq (h : AgreeBelow n node node') (hx : x < n) :
    children node x = children node' x := by
  rw [children, children, h x hx]

theorem AgreeBelow.keyBelow_iff (h : AgreeBelow n node node') (hx : x < n) (hy : y < n) :
    keyBelow node x y ↔ keyBelow node' x y := by
  rw [keyBelow, keyBelow, h.weightAt_eq hx, h.weightAt_eq hy]

theorem AgreeBelow.queueBefore_eq (h : AgreeBelow n node node') (hx : x ≤ n) :
    queueBefore node x = queueBefore node' x := by
  have hchildren : (List.range x).flatMap (children node) = (List.range x).flatMap (children node') :=
    List.flatMap_congr fun y hy => h.children_eq (by have := List.mem_range.mp hy; omega)
  rw [queueBefore, queueBefore, hchildren]

theorem lt_of_mem_queueBefore (h : y ∈ queueBefore node x) : y < x :=
  List.mem_range.mp (List.mem_of_mem_filter h)

/-- `a` and `b` have the smallest and the second smallest key of the queue before node `x`. -/
structure SmallestTwo (node : Memory Node) (x a b : Nat) : Prop where
  memLeft  : a ∈ queueBefore node x
  memRight : b ∈ queueBefore node x
  below    : keyBelow node a b
  rest     : ∀ y ∈ queueBefore node x, y ≠ a → y ≠ b → keyBelow node b y

/-- The smallest two depend only on the entries before the node. -/
theorem AgreeBelow.smallestTwo {a b : Nat} (h : AgreeBelow n node node') (hx : x ≤ n)
    (hm : SmallestTwo node x a b) : SmallestTwo node' x a b := by
  obtain ⟨ha, hb, hab, hrest⟩ := hm
  have hlt {y} (hy : y ∈ queueBefore node x) : y < n := (lt_of_mem_queueBefore hy).trans_le hx
  have hqueue := h.queueBefore_eq hx
  exact ⟨hqueue ▸ ha, hqueue ▸ hb, (h.keyBelow_iff (hlt ha) (hlt hb)).mp hab, fun y hy hya hyb =>
    have hy := hqueue.symm ▸ hy
    (h.keyBelow_iff (hlt hb) (hlt hy)).mp (hrest y hy hya hyb)⟩

theorem mergesSmallest_iff {w : Word} {l r : BitVec 9} (hx : node.readNode x = .internal w l r) :
    mergesSmallest node x ↔ SmallestTwo node x l.toNat r.toNat := by
  rw [mergesSmallest, hx]
  exact ⟨fun ⟨hl, hr, hlr, hrest⟩ => ⟨hl, hr, hlr, hrest⟩,
    fun ⟨hl, hr, hlr, hrest⟩ => ⟨hl, hr, hlr, hrest⟩⟩

theorem exists_internal_of_mergesSmallest (h : mergesSmallest node x) :
    ∃ w l r, node.readNode x = .internal w l r := by
  cases hx : node.readNode x with
  | leaf c w => simp [mergesSmallest, hx] at h
  | internal w l r => exact ⟨w, l, r, rfl⟩

/-- Entries above a node do not matter to whether it joined the smallest keys. -/
theorem AgreeBelow.keeps_mergesSmallest (h : AgreeBelow n node node') (hx : x < n)
    (hm : mergesSmallest node x) : mergesSmallest node' x := by
  obtain ⟨w, l, r, hnode⟩ := exists_internal_of_mergesSmallest hm
  exact (mergesSmallest_iff ((h x hx).symm.trans hnode)).mpr
    (h.smallestTwo hx.le ((mergesSmallest_iff hnode).mp hm))

end AgreeBelow

/-! ## Every merge of BUILD (R223, R224) -/

theorem MergeOk.pq_nodup {freq : Vector Word 256} {m : MergeState} (h : MergeOk freq m) :
    m.pq.Nodup :=
  (List.nodup_append.mp (h.parents.nodup_iff.mpr List.nodup_range)).2.1

/-- The queue holds the nodes without a parent. -/
theorem MergeOk.mem_queueBefore {freq : Vector Word 256} {m : MergeState} (h : MergeOk freq m)
    {y : Nat} : y ∈ queueBefore m.node m.idx ↔ y ∈ m.pq := by
  have hmem := h.parents.mem_iff (a := y)
  have hdisjoint := List.disjoint_of_nodup_append (h.parents.nodup_iff.mpr List.nodup_range)
  rw [List.mem_append] at hmem
  simp only [queueBefore, List.mem_filter, Bool.not_eq_true', List.contains_eq_mem,
    decide_eq_false_iff_not]
  constructor
  · rintro ⟨hlt, hchild⟩
    exact (hmem.mpr hlt).resolve_left hchild
  · exact fun hy => ⟨hmem.mp (.inr hy), fun hchild => hdisjoint hchild hy⟩

/-- The node a merge makes joins the two smallest keys of the queue. -/
theorem MergeOk.mergesSmallest_joined {freq : Vector Word 256} {m : MergeState}
    (h : MergeOk freq m) {a b w : Nat} {q : List Nat} (hperm : m.pq.Perm (a :: b :: q))
    (hab : keyBelow m.node a b) (hbq : ∀ y ∈ q, keyBelow m.node b y) :
    mergesSmallest (m.joined a b q w).node m.idx := by
  obtain ⟨ha, hb, -⟩ := h.members_lt hperm
  have hagree : AgreeBelow m.idx m.node (m.joined a b q w).node := agreeBelow_write m.node m.idx _
  have hmem {y : Nat} : y ∈ queueBefore m.node m.idx ↔ y ∈ a :: b :: q :=
    h.mem_queueBefore.trans hperm.mem_iff
  rw [mergesSmallest_iff (readNode_joined_new m a b q w), h.toNat_index ha, h.toNat_index hb]
  refine hagree.smallestTwo le_rfl ⟨hmem.mpr (by simp), hmem.mpr (by simp), hab, ?_⟩
  intro y hy hya hyb
  exact hbq y (by simpa [hya, hyb] using hmem.mp hy)

/-- The merge loop's invariant, with the order of the merges so far. -/
structure MergeOrdered (freq : Vector Word 256) (m : MergeState) : Prop extends MergeOk freq m where
  ordered : ∀ x, alphabetSize freq ≤ x → x < m.idx → mergesSmallest m.node x

theorem merge_keeps_mergeOrdered {freq : Vector Word 256} {m m' : MergeState}
    (h : MergeOrdered freq m) (hlen : 2 ≤ m.pq.length) (he : merge m = .ok m') :
    MergeOrdered freq m' := by
  obtain ⟨a, b, q, w, hperm, rfl, hab, hbq⟩ := merge_ok_smallest hlen h.pq_nodup he
  refine ⟨merge_keeps_mergeOk h.toMergeOk hlen he, fun x hx hlt => ?_⟩
  obtain hlt | rfl : x < m.idx ∨ x = m.idx := Nat.lt_succ_iff_lt_or_eq.mp hlt
  · exact (agreeBelow_write m.node m.idx _).keeps_mergesSmallest hlt (h.ordered x hx hlt)
  · exact h.mergesSmallest_joined hperm hab hbq

theorem seedLeaves_mergeOrdered {freq : Vector Word 256} (h : alphabetSize freq ≠ 0)
    (node : Memory Node) : MergeOrdered freq (seedLeaves freq node) where
  toMergeOk := seedLeaves_mergeOk h node
  ordered _ hx hlt := absurd hlt (Nat.not_lt.mpr ((seed_foldl freq node _).1.le.trans hx))

/-- BUILD makes a tree exactly when the counts are not all 0 and sum below 2^32 (R224, R228). -/
theorem stageBuild_treeValid_iff (s : State) : (stageBuild s).1.treeValid = true ↔
    alphabetSize s.freq ≠ 0 ∧ totalCount s.freq < 2 ^ 32 := by
  constructor
  · intro hvalid
    obtain hinvalid | ⟨htree, htotal⟩ := stageBuild_tree s
    · cases hvalid.symm.trans hinvalid
    · exact ⟨Nat.one_le_iff_ne_zero.mp htree.nonempty, htotal ▸ BitVec.isLt _⟩
  · rintro ⟨hk, htotal⟩
    rw [stageBuild_succeeds hk htotal]

/-- Every internal node of a tree that BUILD makes joins the two smallest keys. -/
theorem stageBuild_mergesSmallest {s : State} (hvalid : (stageBuild s).1.treeValid = true) {x : Nat}
    (hx : alphabetSize s.freq ≤ x) (hlt : x < 2 * alphabetSize s.freq - 1) :
    mergesSmallest (stageBuild s).1.node x := by
  obtain ⟨-, hs⟩ | ⟨idx, -, -, hs⟩ | ⟨m, hk, hm, hs⟩ := stageBuild_cases s <;> rw [hs] at hvalid ⊢
  · cases hvalid
  · cases hvalid
  · obtain ⟨-, hidx, -⟩ := mergeAll_seedLeaves hk hm
    obtain ⟨h, -⟩ := mergeAll_ok (fun _ _ => merge_keeps_mergeOrdered)
      (seedLeaves_mergeOrdered hk s.node) (seedLeaves_pq_length s.freq s.node).le hm
    exact h.ordered x hx (hidx ▸ hlt)

/-- Settles O38: the merge loop keeps that every node made so far joined the two smallest keys of its
queue (`MergeOrdered`). -/
theorem buildMergesTheSmallestKeys : Obligations.BuildMergesTheSmallestKeys := by
  intro s t ⟨c, hc⟩ htotal ht x hx hlt
  cases CommandStage.build.exec_eq.symm.trans ht
  have hvalid := (stageBuild_treeValid_iff s).mpr ⟨alphabetSize_ne_zero hc, htotal⟩
  simpa using stageBuild_mergesSmallest hvalid hx hlt

end Sys2Proof.Machine

/-! PROOFS, 43_tree_builder.md R224 to R230: when BUILD fails, and that its tree is a function of FREQ alone. -/

namespace Sys2Proof.Machine

/-! ## The failures of BUILD (R227, R228) -/

/-- The alphabet is empty exactly when every count is 0. -/
theorem alphabetSize_eq_zero_iff (freq : Vector Word 256) :
    alphabetSize freq = 0 ↔ ∀ c, entryAt freq c = 0 := by
  simp only [alphabetSize, List.length_eq_zero_iff, List.eq_nil_iff_forall_not_mem,
    mem_presentSymbols, not_not]

theorem stageBuild_empty {s : State} (hk : alphabetSize s.freq = 0) :
    stageBuild s = (s.loseTree, .err ⟨.emptyMap, 0, 0⟩) := by
  obtain ⟨-, hs⟩ | ⟨_, hne, -⟩ | ⟨_, hne, -⟩ := stageBuild_cases s
  · exact hs
  · exact absurd hk hne
  · exact absurd hk hne

/-- Settles O35: BUILD on the empty map loses the tree and ends with EMPTY_MAP. -/
theorem emptyMapFails : Obligations.EmptyMapFails := by
  intro s hempty
  refine ⟨_, CommandStage.build.exec_eq, ?_⟩
  rw [stageBuild_empty ((alphabetSize_eq_zero_iff s.freq).mpr hempty)]
  exact ⟨rfl, rfl⟩

/-- An error of the loop is an error of one of its merges. -/
theorem mergeAll_error {P : MergeState → Prop}
    (hmerge : ∀ m m', P m → 2 ≤ m.pq.length → merge m = .ok m' → P m') {fuel idx : Nat}
    {m : MergeState} (hP : P m) (h : mergeAll fuel m = .error idx) :
    ∃ m', P m' ∧ 2 ≤ m'.pq.length ∧ merge m' = .error idx := by
  induction fuel generalizing m with
  | zero => cases h
  | succ fuel ih =>
    unfold mergeAll at h
    split at h
    · rename_i hlen
      cases hm : merge m with
      | error i =>
        rw [hm] at h
        cases h
        exact ⟨m, hP, hlen, hm⟩
      | ok m' =>
        rw [hm] at h
        exact ih (hmerge m m' hP hlen hm) h
    · cases h

/-- The index in a WEIGHT_OVERFLOW is that of an internal node (R228). -/
theorem mergeAll_seedLeaves_error {freq : Vector Word 256} {node : Memory Node} {idx : Nat}
    (hk : alphabetSize freq ≠ 0)
    (he : mergeAll (alphabetSize freq) (seedLeaves freq node) = .error idx) :
    alphabetSize freq ≤ idx ∧ idx < 2 * alphabetSize freq - 1 := by
  obtain ⟨m, h, hlen, hm⟩ :=
    mergeAll_error (fun _ _ => merge_keeps_mergeOk) (seedLeaves_mergeOk hk node) he
  obtain ⟨_, _, _, _, -, -, ⟨-, herr⟩ | ⟨-, hok⟩⟩ := merge_cases hlen
  · cases herr.symm.trans hm
    have := h.size
    exact ⟨h.built, by omega⟩
  · cases hok.symm.trans hm

/-- BUILD fails with WEIGHT_OVERFLOW on counts that sum to 2^32 or more. -/
theorem stageBuild_overflow {s : State} (htotal : 2 ^ 32 ≤ totalCount s.freq) :
    ∃ idx, alphabetSize s.freq ≤ idx ∧ idx < 2 * alphabetSize s.freq - 1 ∧
      stageBuild s = (s.loseTree, .err ⟨.weightOverflow, BitVec.ofNat 32 idx, 0⟩) := by
  obtain ⟨hk, -⟩ | ⟨idx, hk, he, hs⟩ | ⟨m, -, -, hs⟩ := stageBuild_cases s
  · have hnone : presentSymbols s.freq = [] := List.length_eq_zero_iff.mp hk
    have hzero : totalCount s.freq = 0 := by rw [totalCount_eq, hnone]; rfl
    omega
  · obtain ⟨hle, hlt⟩ := mergeAll_seedLeaves_error hk he
    exact ⟨idx, hle, hlt, hs⟩
  · have hvalid : (stageBuild s).1.treeValid = true := by rw [hs]
    exact absurd ((stageBuild_treeValid_iff s).mp hvalid).2 (Nat.not_lt_of_le htotal)

/-- Settles O39: the loop can only end in a merge's overflow, because a finished tree's root would hold
the total count; the merge that fails was creating an internal node. -/
theorem buildOverflows : Obligations.BuildOverflows := by
  intro s htotal
  obtain ⟨idx, hle, hlt, hs⟩ := stageBuild_overflow htotal
  have hk := alphabetSize_le s.freq
  have hidx : (BitVec.ofNat 32 idx).toNat = idx :=
    (BitVec.toNat_ofNat idx 32).trans (Nat.mod_eq_of_lt (by omega))
  refine ⟨_, CommandStage.build.exec_eq, ?_⟩
  rw [hs]
  exact ⟨rfl, hidx.symm ▸ hle, hidx.symm ▸ hlt, rfl⟩

/-! ## The tree is determined by FREQ (R230) -/

/-- The left one is below every other member of the queue. -/
theorem SmallestTwo.left_below {node : Memory Node} {x a b y : Nat} (h : SmallestTwo node x a b)
    (hy : y ∈ queueBefore node x) (hne : y ≠ a) : keyBelow node a y := by
  by_cases hyb : y = b
  · exact hyb ▸ h.below
  · exact keyBelow_trans h.below (h.rest y hy hne hyb)

/-- A queue has one pair of smallest two. -/
theorem SmallestTwo.unique {node : Memory Node} {x a b a' b' : Nat} (h : SmallestTwo node x a b)
    (h' : SmallestTwo node x a' b') : a = a' ∧ b = b' := by
  have hleft : a = a' := by
    by_contra hne
    exact keyBelow_asymm (h.left_below h'.memLeft (Ne.symm hne)) (h'.left_below h.memLeft hne)
  subst hleft
  have hne_left {c : Nat} (hc : keyBelow node a c) : c ≠ a := by
    rintro rfl
    exact keyBelow_asymm hc hc
  refine ⟨rfl, ?_⟩
  by_contra hne
  exact keyBelow_asymm (h.rest b' h'.memRight (hne_left h'.below) (Ne.symm hne))
    (h'.rest b h.memRight (hne_left h.below) hne)

/-- The weight of an internal node of a tree is the sum of its children's (10_state.md R63). -/
theorem weight_of_internalOk {node : Memory Node} {x : Nat} {w : Word} {l r : BitVec 9}
    (hx : node.readNode x = .internal w l r) (h : internalOk node x = true) :
    l.toNat < x ∧ r.toNat < x ∧ w.toNat = weightAt node l.toNat + weightAt node r.toNat := by
  simpa only [internalOk, hx, Bool.and_eq_true, decide_eq_true_eq, beq_iff_eq, and_assoc] using h

/-- NODE holds a tree over FREQ whose every internal node joined the two smallest keys. -/
structure BuiltTree (freq : Vector Word 256) (node : Memory Node) (root : BitVec 9)
    (nnodes : BitVec 10) : Prop extends TreeOf freq node root nnodes where
  ordered : ∀ x, alphabetSize freq ≤ x → x < 2 * alphabetSize freq - 1 → mergesSmallest node x

section Unique

variable {freq : Vector Word 256} {node node' : Memory Node} {root root' : BitVec 9}
  {nnodes nnodes' : BitVec 10}

/-- The internal nodes of two built trees are the same where the entries below are. -/
theorem BuiltTree.internal_unique (h : BuiltTree freq node root nnodes)
    (h' : BuiltTree freq node' root' nnodes') {x : Nat} (hx : alphabetSize freq ≤ x)
    (hlt : x < 2 * alphabetSize freq - 1) (hagree : AgreeBelow x node node') :
    node.readNode x = node'.readNode x := by
  obtain ⟨w, l, r, hnode⟩ := exists_internal_of_mergesSmallest (h.ordered x hx hlt)
  obtain ⟨w', l', r', hnode'⟩ := exists_internal_of_mergesSmallest (h'.ordered x hx hlt)
  have hmin := (mergesSmallest_iff hnode).mp (h.ordered x hx hlt)
  have hmin' := (mergesSmallest_iff hnode').mp (h'.ordered x hx hlt)
  obtain ⟨hl, hr⟩ := hmin.unique (hagree.symm.smallestTwo le_rfl hmin')
  obtain rfl := BitVec.eq_of_toNat_eq hl
  obtain rfl := BitVec.eq_of_toNat_eq hr
  obtain ⟨hlx, hrx, hw⟩ := weight_of_internalOk hnode (h.internals x hx hlt)
  obtain ⟨-, -, hw'⟩ := weight_of_internalOk hnode' (h'.internals x hx hlt)
  have hweight : w = w' := BitVec.eq_of_toNat_eq <| by
    rw [hw, hw', hagree.weightAt_eq hlx, hagree.weightAt_eq hrx]
  rw [hnode, hnode', hweight]

/-- The leaves of two trees over the same FREQ are the same. -/
theorem leaf_unique (h : TreeOf freq node root nnodes) (h' : TreeOf freq node' root' nnodes')
    {x : Nat} (hx : x < alphabetSize freq) : node.readNode x = node'.readNode x :=
  List.map_inj_left.mp (h.leaves.trans h'.leaves.symm) x (List.mem_range.mpr hx)

/-- Two built trees over the same FREQ are the same: entry by entry from index 0 up. -/
theorem BuiltTree.unique (h : BuiltTree freq node root nnodes)
    (h' : BuiltTree freq node' root' nnodes') :
    root = root' ∧ nnodes = nnodes' ∧ AgreeBelow nnodes.toNat node node' := by
  refine ⟨BitVec.eq_of_toNat_eq (h.rootIndex.trans h'.rootIndex.symm),
    BitVec.eq_of_toNat_eq (h.count.trans h'.count.symm), fun x => ?_⟩
  rw [h.count]
  induction x using Nat.strong_induction_on with
  | _ x ih =>
    intro hx
    obtain hleaf | hinternal := Nat.lt_or_ge x (alphabetSize freq)
    · exact leaf_unique h.toTreeOf h'.toTreeOf hleaf
    · exact h.internal_unique h' hinternal hx fun y hy => ih y hy (hy.trans hx)

end Unique

theorem stageBuild_builtTree {s : State} (hvalid : (stageBuild s).1.treeValid = true) :
    BuiltTree s.freq (stageBuild s).1.node (stageBuild s).1.root (stageBuild s).1.nnodes where
  toTreeOf := by simpa using stageBuild_treeOk s hvalid
  ordered _ := stageBuild_mergesSmallest hvalid

/-- Two BUILDs on equal FREQ make the same tree. -/
theorem stageBuild_unique {s s' : State} (hfreq : s.freq = s'.freq)
    (hvalid : (stageBuild s).1.treeValid = true) : (stageBuild s').1.treeValid = true ∧
      (stageBuild s).1.root = (stageBuild s').1.root ∧
      (stageBuild s).1.nnodes = (stageBuild s').1.nnodes ∧
      AgreeBelow (stageBuild s).1.nnodes.toNat (stageBuild s).1.node (stageBuild s').1.node := by
  have hvalid' : (stageBuild s').1.treeValid = true := by
    rwa [stageBuild_treeValid_iff, ← hfreq, ← stageBuild_treeValid_iff]
  exact ⟨hvalid', (stageBuild_builtTree hvalid).unique (hfreq ▸ stageBuild_builtTree hvalid')⟩

/-- Settles O40: FREQ decides whether BUILD succeeds, and the merge order then fixes every entry. -/
theorem buildDependsOnFreqOnly : Obligations.BuildDependsOnFreqOnly := by
  intro s₁ s₂ t₁ t₂ hfreq ht₁ ht₂ hvalid
  cases CommandStage.build.exec_eq.symm.trans ht₁
  cases CommandStage.build.exec_eq.symm.trans ht₂
  simp only [complete_same] at hvalid ⊢
  exact stageBuild_unique hfreq hvalid

end Sys2Proof.Machine

/-! PROOFS, 46_encode_pipeline.md R305: ENCODE is a function of the input, stage by stage. -/

namespace Sys2Proof.Machine

/-! ## GEN on the same tree (44_code_table_generator.md R252) -/

section Walk

variable {node node' : Memory Node} {n : Nat}

/-- `Walk` reads only entries below `n` when it starts there and no child lies above. -/
theorem walk_congr (hagree : AgreeBelow n node node')
    (hclosed : ∀ x < n, ∀ y ∈ children node x, y < n) (fuel : Nat) {x : BitVec 9}
    (hx : x.toNat < n) (p : List Bool) (ct : Vector CodeEntry 256) :
    walk node fuel x p ct = walk node' fuel x p ct := by
  induction fuel generalizing x p ct with
  | zero => rfl
  | succ fuel ih =>
    unfold walk
    rw [← hagree x.toNat hx]
    cases hnode : node.readNode x.toNat with
    | leaf c w => rfl
    | internal w l r =>
      have hchild (b : Bool) : (if b then r.toNat else l.toNat) < n :=
        hclosed x.toNat hx _ (mem_children.mpr ⟨w, l, r, hnode, b, rfl⟩)
      simp only
      rw [ih (hchild false), ih (hchild true)]

/-- The children of a tree's nodes are nodes of the tree. -/
theorem TreeOf.child_lt {freq : Vector Word 256} {root : BitVec 9} {nnodes : BitVec 10}
    (h : TreeOf freq node root nnodes) {x y : Nat} (hx : x < nnodes.toNat)
    (hy : y ∈ children node x) : y < nnodes.toNat := by
  rw [h.count] at hx ⊢
  have hmem := List.mem_flatMap.mpr ⟨x, List.mem_range.mpr hx, hy⟩
  have hlt := List.mem_range.mp (h.parents.mem_iff.mp hmem)
  omega

/-- GEN makes the same codes of the same tree. -/
theorem TreeOf.treeCodes_congr {freq : Vector Word 256} {root : BitVec 9} {nnodes : BitVec 10}
    (h : TreeOf freq node root nnodes) (hagree : AgreeBelow nnodes.toNat node node') :
    treeCodes node root = treeCodes node' root := by
  have hroot : root.toNat < nnodes.toNat := by
    have := h.nonempty
    rw [h.rootIndex, h.count]
    omega
  unfold treeCodes
  rw [← hagree root.toNat hroot]
  cases node.readNode root.toNat with
  | leaf c w => rfl
  | internal w l r => exact walk_congr hagree (fun x hx y => h.child_lt hx) 256 hroot _ _

end Walk

/-! ## PACK of the same input with the same codes (45_bit_packer.md R273) -/

/-- Two packings have emitted the same bits: the same counters, and the same complete bytes. -/
structure SamePacking (k k' : PackState) : Prop where
  p     : k.p = k'.p
  acc   : k.acc = k'.acc
  nacc  : k.nacc = k'.nacc
  fill  : k.nacc.toNat = k.p % 8
  bytes : ∀ b, b < k.p / 8 → k.obuf.readByte b = k'.obuf.readByte b

theorem SamePacking.pushBit {k k' : PackState} (h : SamePacking k k') (b : Bool) :
    SamePacking (pushBit k b) (pushBit k' b) := by
  obtain ⟨p, acc, nacc, obuf⟩ := k
  obtain ⟨p', acc', nacc', obuf'⟩ := k'
  obtain ⟨rfl, rfl, rfl, hfill, hbytes⟩ := h
  simp only at hfill hbytes
  have hfill' : (nacc + 1).toNat = (p + 1) % 8 := by
    have hone : (1 : BitVec 3).toNat = 1 := rfl
    rw [BitVec.toNat_add, hfill, hone]
    omega
  unfold Machine.pushBit
  simp only
  split
  · refine ⟨rfl, rfl, rfl, hfill', fun c hc => ?_⟩
    simp only at hc ⊢
    rw [Memory.readByte_write, Memory.readByte_write]
    split
    · rfl
    · exact hbytes c (by omega)
  · rename_i hne
    have hpos : (nacc + 1).toNat ≠ 0 := fun h0 => hne (BitVec.eq_of_toNat_eq h0)
    refine ⟨rfl, rfl, rfl, hfill', fun c hc => hbytes c ?_⟩
    simp only at hc
    omega

theorem SamePacking.pushCode {k k' : PackState} (h : SamePacking k k') (e : CodeEntry) :
    SamePacking (pushCode k e) (pushCode k' e) := by
  unfold Machine.pushCode
  induction e.bits generalizing k k' with
  | nil => exact h
  | cons b bits ih => exact ih (h.pushBit b)

/-- The last partial byte is the same too. -/
theorem SamePacking.flushBits {k k' : PackState} (h : SamePacking k k') {b : Nat}
    (hb : b < (k.p + 7) / 8) : (flushBits k).readByte b = (flushBits k').readByte b := by
  obtain ⟨p, acc, nacc, obuf⟩ := k
  obtain ⟨p', acc', nacc', obuf'⟩ := k'
  obtain ⟨rfl, rfl, rfl, hfill, hbytes⟩ := h
  simp only at hfill hbytes hb
  unfold Machine.flushBits
  simp only
  split
  · rw [Memory.readByte_write, Memory.readByte_write]
    split
    · rfl
    · exact hbytes b (by omega)
  · rename_i hzero
    have hnacc : nacc.toNat = 0 := by rw [not_not.mp hzero]; rfl
    exact hbytes b (by omega)

/-- Before the first bit nothing depends on OBUF. -/
theorem samePacking_start (obuf obuf' : Memory Byte) :
    SamePacking ⟨0, 0, 0, obuf⟩ ⟨0, 0, 0, obuf'⟩ :=
  ⟨rfl, rfl, rfl, rfl, fun _ hb => absurd hb (by simp)⟩

/-- PACK's loop ends the same way in two states with the same codes, bytes and capacity. -/
theorem packFrom_congr {s s' : State} (hct : s.ct = s'.ct) (hparams : s.params = s'.params)
    {n i : Nat} {k k' : PackState}
    (hbytes : ∀ j, i ≤ j → j < i + n → s.ibuf.readByte j = s'.ibuf.readByte j)
    (h : SamePacking k k') :
    (∃ e, packFrom s n i k = .error e ∧ packFrom s' n i k' = .error e) ∨
      ∃ m m', packFrom s n i k = .ok m ∧ packFrom s' n i k' = .ok m' ∧ SamePacking m m' := by
  induction n generalizing i k k' with
  | zero => exact .inr ⟨k, k', rfl, rfl, h⟩
  | succ n ih =>
    unfold packFrom
    simp only [← hct, ← hparams, ← hbytes i le_rfl (by omega), ← h.p]
    split
    · exact .inl ⟨_, rfl, rfl⟩
    · split
      · exact .inl ⟨_, rfl, rfl⟩
      · exact ih (fun j hj hlt => hbytes j (by omega) (by omega)) (h.pushCode _)

/-- Two states whose output registers and valid output bytes are the same. -/
structure SameOutput (s s' : State) : Prop where
  valid    : s.outValid = s'.outValid
  outBytes : s.outBytes = s'.outBytes
  outBits  : s.outBits = s'.outBits
  bytes    : ∀ b, b < s.outBytes.toNat → s.obuf.readByte b = s'.obuf.readByte b

theorem losePacked_sameOutput (s s' : State) : SameOutput s.losePacked s'.losePacked :=
  ⟨rfl, rfl, rfl, fun b hb => absurd hb (Nat.not_lt_zero b)⟩

theorem inputBytes_readByte {s s' : State} (hinput : inputBytes s = inputBytes s')
    (hlen : s.inLen = s'.inLen) {j : Nat} (hj : j < s.inLen.toNat) :
    s.ibuf.readByte j = s'.ibuf.readByte j := by
  rw [inputBytes, inputBytes, ← hlen] at hinput
  exact List.map_inj_left.mp hinput j (List.mem_range.mpr hj)

theorem stagePack_of_error {s : State} {e : CmdError} (hrange : s.inLen.toNat ≤ s.params.ibufBytes)
    (h : packFrom s s.inLen.toNat 0 ⟨0, 0, 0, s.obuf⟩ = .error e) :
    stagePack s = (s.losePacked, .err e) := by
  obtain ⟨hout, -⟩ | ⟨e', -, he, hs⟩ | ⟨k, -, hk, -⟩ := stagePack_cases s
  · exact absurd hrange (Nat.not_le_of_lt hout)
  · cases he.symm.trans h
    exact hs
  · cases hk.symm.trans h

theorem stagePack_of_ok {s : State} {k : PackState} (hrange : s.inLen.toNat ≤ s.params.ibufBytes)
    (h : packFrom s s.inLen.toNat 0 ⟨0, 0, 0, s.obuf⟩ = .ok k) :
    stagePack s = ({ s with
      obuf := flushBits k
      outBits := BitVec.ofNat 32 k.p
      outBytes := BitVec.ofNat 32 ((k.p + 7) / 8)
      outValid := true }, .ok) := by
  obtain ⟨hout, -⟩ | ⟨e, -, he, -⟩ | ⟨k', -, hk, hs⟩ := stagePack_cases s
  · exact absurd hrange (Nat.not_le_of_lt hout)
  · cases he.symm.trans h
  · cases hk.symm.trans h
    exact hs

/-- PACK of the same input with the same codes makes the same output. -/
theorem stagePack_sameOutput {s s' : State} (hct : s.ct = s'.ct) (hparams : s.params = s'.params)
    (hlen : s.inLen = s'.inLen) (hrange : s.inLen.toNat ≤ s.params.ibufBytes)
    (hinput : inputBytes s = inputBytes s') : SameOutput (stagePack s).1 (stagePack s').1 := by
  have hrange' : s'.inLen.toNat ≤ s'.params.ibufBytes := hlen ▸ hparams ▸ hrange
  have hbytes (j : Nat) (_ : 0 ≤ j) (hj : j < 0 + s.inLen.toNat) :
      s.ibuf.readByte j = s'.ibuf.readByte j := inputBytes_readByte hinput hlen (by omega)
  have hloop := packFrom_congr hct hparams hbytes (samePacking_start s.obuf s'.obuf)
  obtain ⟨e, h, h'⟩ | ⟨k, k', h, h', hsame⟩ := hloop
  · rw [stagePack_of_error hrange h, stagePack_of_error hrange' (hlen ▸ h')]
    exact losePacked_sameOutput s s'
  · rw [stagePack_of_ok hrange h, stagePack_of_ok hrange' (hlen ▸ h')]
    refine ⟨rfl, ?_, ?_, fun b hb => hsame.flushBits (hb.trans_le ?_)⟩
    · simp only [hsame.p]
    · simp only [hsame.p]
    · exact (BitVec.toNat_ofNat ..).trans_le (Nat.mod_le _ _)

/-! ## ENCODE -/

/-- The state after ENCODE's COUNT and BUILD. -/
def State.built (s : State) : State := (stageBuild (stageCount s).1).1

/-- The state ENCODE hands to PACK: the tree's codes are in CT. -/
def State.coded (s : State) : State :=
  { s.built with ct := treeCodes s.built.node s.built.root }

@[simp] theorem State.built_same (s : State) :
    s.built.freq = (stageCount s).1.freq ∧ s.built.ibuf = s.ibuf ∧ s.built.inLen = s.inLen ∧
      s.built.params = s.params := by
  simp [State.built]

theorem State.coded_ct (s : State) : s.coded.ct = treeCodes s.built.node s.built.root := by
  rw [State.coded]

/-- The fields GEN leaves as BUILD made them. -/
@[simp] theorem State.coded_same (s : State) :
    s.coded.freq = (stageCount s).1.freq ∧ s.coded.node = s.built.node ∧
      s.coded.root = s.built.root ∧ s.coded.nnodes = s.built.nnodes ∧
      s.coded.treeValid = s.built.treeValid ∧ s.coded.inLen = s.inLen ∧
      s.coded.params = s.params := by
  simp [State.coded]

@[simp] theorem State.coded_input (s : State) : inputBytes s.coded = inputBytes s := by
  simp [inputBytes, State.coded]

/-- ENCODE of an input that is not empty and in range makes a tree, and ends as PACK does. -/
theorem stageEncode_eq_stagePack {s : State} (hlen : s.inLen ≠ 0)
    (hrange : s.inLen.toNat ≤ s.params.ibufBytes) :
    s.built.treeValid = true ∧ stageEncode s = stagePack s.coded := by
  have hcount := stageCount_inRange hrange
  have hok : stageCount s = ((stageCount s).1, .ok) := by rw [hcount]
  have hk : alphabetSize (stageCount s).1.freq ≠ 0 := by
    rw [hcount]
    exact (alphabetSize_countBytes_eq_zero_iff s).not.mpr hlen
  obtain ⟨hbuild, hvalid⟩ := stageBuild_after_count hok hk
  have hbuilt : stageBuild (stageCount s).1 = (s.built, .ok) := Prod.ext rfl hbuild
  have hgen : stageGen s.built = (s.coded, .ok) := stageGen_of_treeValid hvalid
  exact ⟨hvalid, stageEncode_of_stages hok hk hbuilt hgen⟩

/-- What ENCODE leaves of two equal inputs. -/
structure SameResult (t t' : State) : Prop where
  freq      : t.freq = t'.freq
  treeValid : t.treeValid = t'.treeValid
  ct        : t.ct = t'.ct
  tree      : t.treeValid = true → t.root = t'.root ∧ t.nnodes = t'.nnodes ∧
                AgreeBelow t.nnodes.toNat t.node t'.node
  output    : SameOutput t t'

theorem exec_encode_empty {s t : State} (hlen : s.inLen = 0) (ht : exec .encode s = .next t) :
    t.freq = zeroFreq ∧ t.treeValid = false ∧ t.ct = emptyCodes ∧ t.outValid = true ∧
      t.outBytes = 0 ∧ t.outBits = 0 := by
  cases (encodeOfTheEmptyInput.2 s hlen).symm.trans ht
  exact ⟨rfl, rfl, rfl, rfl, rfl, rfl⟩

/-- Two ENCODEs of the empty input leave the same results (46_encode_pipeline.md R301). -/
theorem exec_encode_empty_sameResult {s s' t t' : State} (hlen : s.inLen = 0)
    (hlen' : s'.inLen = 0) (ht : exec .encode s = .next t) (ht' : exec .encode s' = .next t') :
    SameResult t t' := by
  obtain ⟨hfreq, htree, hct, hvalid, hbytes, hbits⟩ := exec_encode_empty hlen ht
  obtain ⟨hfreq', htree', hct', hvalid', hbytes', hbits'⟩ := exec_encode_empty hlen' ht'
  exact {
    freq := hfreq.trans hfreq'.symm
    treeValid := htree.trans htree'.symm
    ct := hct.trans hct'.symm
    tree := fun h => by cases htree.symm.trans h
    output := ⟨hvalid.trans hvalid'.symm, hbytes.trans hbytes'.symm, hbits.trans hbits'.symm,
      fun b hb => by rw [hbytes] at hb; exact absurd hb (Nat.not_lt_zero b)⟩ }

/-- COUNT makes the same table of the same input (42_frequency_counter.md R206). -/
theorem stageCount_freq_congr {s s' : State} (hrange : s.inLen.toNat ≤ s.params.ibufBytes)
    (hrange' : s'.inLen.toNat ≤ s'.params.ibufBytes) (hinput : inputBytes s = inputBytes s') :
    (stageCount s).1.freq = (stageCount s').1.freq := by
  have h := countIgnoresTheOrder s s' _ _ hrange hrange' (.of_eq hinput)
    CommandStage.count.exec_eq CommandStage.count.exec_eq
  simpa using h

theorem State.built_treeOk (s : State) : TreeOk s.built := by
  unfold State.built
  exact stageBuild_treeOk (stageCount s).1

theorem State.built_unique {s s' : State} (hfreq : (stageCount s).1.freq = (stageCount s').1.freq)
    (hvalid : s.built.treeValid = true) : s'.built.treeValid = true ∧
      s.built.root = s'.built.root ∧ s.built.nnodes = s'.built.nnodes ∧
      AgreeBelow s.built.nnodes.toNat s.built.node s'.built.node := by
  unfold State.built at *
  exact stageBuild_unique hfreq hvalid

/-- Two ENCODEs of the same input that is not empty leave the same results. -/
theorem stageEncode_sameResult {s s' : State} (hparams : s.params = s'.params)
    (hlen : s.inLen = s'.inLen) (hrange : s.inLen.toNat ≤ s.params.ibufBytes)
    (hinput : inputBytes s = inputBytes s') (hne : s.inLen ≠ 0) :
    SameResult (stageEncode s).1 (stageEncode s').1 := by
  have hrange' : s'.inLen.toNat ≤ s'.params.ibufBytes := hlen ▸ hparams ▸ hrange
  obtain ⟨hvalid, hs⟩ := stageEncode_eq_stagePack hne hrange
  obtain ⟨-, hs'⟩ := stageEncode_eq_stagePack (hlen ▸ hne) hrange'
  have hfreq := stageCount_freq_congr hrange hrange' hinput
  obtain ⟨hvalid', hroot, hnnodes, hagree⟩ := State.built_unique hfreq hvalid
  have hct : s.coded.ct = s'.coded.ct := by
    rw [State.coded_ct, State.coded_ct, ← hroot]
    exact (s.built_treeOk hvalid).treeCodes_congr hagree
  have houtput : SameOutput (stagePack s.coded).1 (stagePack s'.coded).1 :=
    stagePack_sameOutput hct (by simpa using hparams) (by simpa using hlen) (by simpa using hrange)
      (by simpa using hinput)
  rw [hs, hs']
  exact {
    freq := by simpa using hfreq
    treeValid := by simp [hvalid, hvalid']
    ct := by simpa using hct
    tree := fun _ => by simpa using ⟨hroot, hnnodes, hagree⟩
    output := houtput }

theorem complete_sameResult {r r' : Stage} (h : SameResult r.1 r'.1) :
    SameResult (complete r) (complete r') := by
  obtain ⟨hfreq, htree, hct, hnode, hvalid, hbytes, hbits, hobuf⟩ := h
  exact ⟨by simpa, by simpa, by simpa, by simpa, by simpa, by simpa, by simpa, by simpa⟩

/-- Settles O49: COUNT, BUILD and GEN make the same tables of the same input, and then PACK the same
output; the empty input leaves empty results. -/
theorem encodeDependsOnTheInputOnly : Obligations.EncodeDependsOnTheInputOnly := by
  intro s₁ s₂ t₁ t₂ hparams hlen hrange hinput ht₁ ht₂
  have hsame : SameResult t₁ t₂ := by
    by_cases hempty : s₁.inLen = 0
    · exact exec_encode_empty_sameResult hempty (hlen ▸ hempty) ht₁ ht₂
    · cases CommandStage.encode.exec_eq.symm.trans ht₁
      cases CommandStage.encode.exec_eq.symm.trans ht₂
      exact complete_sameResult (stageEncode_sameResult hparams hlen hrange hinput hempty)
  obtain ⟨hfreq, htree, hct, hnode, hvalid, hbytes, hbits, hobuf⟩ := hsame
  exact ⟨hfreq, htree, hct, hnode, hvalid, hbytes, hbits, hobuf⟩

end Sys2Proof.Machine

/-! PROOFS, 44_code_table_generator.md: GEN without a tree, the code GEN gives each symbol, and that a
stream of such codes has one reading (45_bit_packer.md R278). -/

namespace Sys2Proof.Machine

/-! ## GEN without a tree (R252) -/

/-- Settles O41: the stage leaves the state, and its completion records NO_TREE. -/
theorem genWithoutATreeFails : Obligations.GenWithoutATreeFails := by
  intro s hinvalid
  obtain ⟨-, hs⟩ | ⟨hvalid, -⟩ := stageGen_cases s
  · rw [CommandStage.gen.exec_eq, hs]
    rfl
  · exact absurd (hinvalid.symm.trans hvalid) (by decide)

/-! ## The nodes of a tree and the ends of its paths (10_state.md R63; R251, R256) -/

section Tree

variable {freq : Vector Word 256} {node : Memory Node} {root : BitVec 9} {nnodes : BitVec 10}

/-- Below index `k` stand leaves, each of a symbol of the alphabet with its count. -/
theorem TreeOf.exists_leaf (h : TreeOf freq node root nnodes) {x : Nat}
    (hx : x < alphabetSize freq) :
    ∃ c, entryAt freq c ≠ 0 ∧ node.readNode x = .leaf c (entryAt freq c) := by
  have hmem := List.mem_map_of_mem (f := node.readNode) (List.mem_range.mpr hx)
  rw [h.leaves] at hmem
  obtain ⟨c, hc, hnode⟩ := List.mem_map.mp hmem
  exact ⟨c, (mem_presentSymbols freq c).mp hc, hnode.symm⟩

/-- From index `k` on stand internal nodes, with smaller children. -/
theorem TreeOf.exists_internal (h : TreeOf freq node root nnodes) {x : Nat}
    (hk : alphabetSize freq ≤ x) (hx : x < 2 * alphabetSize freq - 1) :
    ∃ w l r, node.readNode x = .internal w l r ∧
      ∀ b : Bool, (if b then r.toNat else l.toNat) < x := by
  have hok := h.internals x hk hx
  cases hnode : node.readNode x with
  | leaf c w => simp [internalOk, hnode] at hok
  | internal w l r =>
    exact ⟨w, l, r, rfl, fun b =>
      child_lt_of_internalOk hok (mem_children.mpr ⟨w, l, r, hnode, b, rfl⟩)⟩

/-- A leaf some path ends at is that of a symbol of the alphabet. The indices fall along the path and
all but its end are internal, which bounds its length. -/
theorem TreeOf.leaf_of_follow (h : TreeOf freq node root nnodes) {x : Nat} {p : List Bool}
    {c : Byte} {w : Word} (hx : x < 2 * alphabetSize freq - 1)
    (hp : follow node x p = some (.leaf c w)) :
    entryAt freq c ≠ 0 ∧ w = entryAt freq c ∧ p.length ≤ x - (alphabetSize freq - 1) := by
  induction p generalizing x with
  | nil =>
    have hnode : node.readNode x = .leaf c w := Option.some.inj hp
    obtain hlt | hge := Nat.lt_or_ge x (alphabetSize freq)
    · obtain ⟨d, hd, hleaf⟩ := h.exists_leaf hlt
      cases hnode.symm.trans hleaf
      exact ⟨hd, rfl, Nat.zero_le _⟩
    · obtain ⟨_, _, _, hinternal, -⟩ := h.exists_internal hge hx
      cases hnode.symm.trans hinternal
  | cons b p ih =>
    obtain hlt | hge := Nat.lt_or_ge x (alphabetSize freq)
    · obtain ⟨d, -, hleaf⟩ := h.exists_leaf hlt
      simp [follow, hleaf] at hp
    · obtain ⟨_, l, r, hinternal, hchild⟩ := h.exists_internal hge hx
      have hlt := hchild b
      obtain ⟨hc, hw, hlen⟩ :=
        ih (x := if b then r.toNat else l.toNat) (by omega) (by simpa [follow, hinternal] using hp)
      refine ⟨hc, hw, ?_⟩
      rw [List.length_cons]
      omega

theorem TreeOf.root_lt (h : TreeOf freq node root nnodes) :
    root.toNat < 2 * alphabetSize freq - 1 := by
  have := h.nonempty
  rw [h.rootIndex]
  omega

/-- A path from the root to a leaf has at most `k - 1` bits (R256). -/
theorem TreeOf.leaf_of_follow_root (h : TreeOf freq node root nnodes) {p : List Bool} {c : Byte}
    {w : Word} (hp : follow node root.toNat p = some (.leaf c w)) :
    entryAt freq c ≠ 0 ∧ w = entryAt freq c ∧ p.length ≤ alphabetSize freq - 1 := by
  obtain ⟨hc, hw, hlen⟩ := h.leaf_of_follow h.root_lt hp
  have := h.rootIndex
  exact ⟨hc, hw, by omega⟩

/-- With several symbols the root is no leaf. -/
theorem TreeOf.root_ne_leaf (h : TreeOf freq node root nnodes) (hk : 1 < alphabetSize freq)
    (c : Byte) (w : Word) : node.readNode root.toNat ≠ .leaf c w := by
  have hindex := h.rootIndex
  obtain ⟨_, _, _, hinternal, -⟩ := h.exists_internal (x := root.toNat) (by omega) h.root_lt
  simp [hinternal]

end Tree

/-! ## The code of each symbol (R252 to R256) -/

/-- A valid entry GEN makes, on any NODE contents: the code "0" when the root is its symbol's leaf, and
a path from the root to a leaf of its symbol otherwise. -/
theorem treeCodes_valid_cases {node : Memory Node} {root : BitVec 9} {c : Byte}
    (hvalid : (entryAt (treeCodes node root) c).valid = true) :
    (∃ w, node.readNode root.toNat = .leaf c w ∧
      (entryAt (treeCodes node root) c).code = [false]) ∨
    (∃ w, follow node root.toNat (entryAt (treeCodes node root) c).code = some (.leaf c w) ∧
      1 ≤ (entryAt (treeCodes node root) c).code.length) := by
  unfold treeCodes at hvalid ⊢
  cases hroot : node.readNode root.toNat with
  | leaf d w =>
    simp only [hroot, entryAt_setEntry] at hvalid ⊢
    split at hvalid
    · subst d
      exact .inl ⟨w, rfl, by simp [CodeEntry.ofPath]⟩
    · simp [CodeEntry.invalid] at hvalid
  | internal w l r =>
    simp only [hroot] at hvalid ⊢
    have hrecords := walk_recordsLeaves (fuel := 256) (x := root) (p := [])
      (emptyCodes_recordsLeaves node root.toNat) rfl (Nat.le_refl _) (by simp [hroot])
    obtain he | ⟨p, w', he, hpos, -, hp⟩ := hrecords c
    · simp [he, CodeEntry.invalid] at hvalid
    · rw [he]
      exact .inr ⟨w', hp, hpos⟩

section Codes

variable {freq : Vector Word 256} {node : Memory Node} {root : BitVec 9} {nnodes : BitVec 10}
  {c : Byte}

/-- GEN on a tree over FREQ gives a code to the symbols of the alphabet only (R254). -/
theorem TreeOf.treeCodes_valid_iff (h : TreeOf freq node root nnodes) :
    (entryAt (treeCodes node root) c).valid = true ↔ entryAt freq c ≠ 0 := by
  refine ⟨fun hvalid => ?_, h.treeCodes_valid⟩
  obtain ⟨w, hroot, -⟩ | ⟨w, hp, -⟩ := treeCodes_valid_cases hvalid
  · exact (h.leaf_of_follow_root (p := []) (congrArg some hroot)).1
  · exact (h.leaf_of_follow_root hp).1

/-- A symbol alone in the alphabet gets "0" (R253): its leaf is the root, where no longer path starts. -/
theorem TreeOf.treeCodes_single (h : TreeOf freq node root nnodes) (hc : entryAt freq c ≠ 0)
    (hk : alphabetSize freq = 1) : (entryAt (treeCodes node root) c).code = [false] := by
  obtain ⟨_, -, hcode⟩ | ⟨_, hp, hpos⟩ := treeCodes_valid_cases (h.treeCodes_valid hc)
  · exact hcode
  · obtain ⟨-, -, hlen⟩ := h.leaf_of_follow_root hp
    omega

/-- A symbol of a larger alphabet gets its leaf's path from the root, of 1 to `k - 1` bits (R254,
R256). -/
theorem TreeOf.treeCodes_path (h : TreeOf freq node root nnodes) (hc : entryAt freq c ≠ 0)
    (hk : 1 < alphabetSize freq) :
    follow node root.toNat (entryAt (treeCodes node root) c).code =
        some (.leaf c (entryAt freq c)) ∧
      1 ≤ (entryAt (treeCodes node root) c).code.length ∧
      (entryAt (treeCodes node root) c).code.length ≤ alphabetSize freq - 1 := by
  obtain ⟨w, hroot, -⟩ | ⟨w, hp, hpos⟩ := treeCodes_valid_cases (h.treeCodes_valid hc)
  · exact absurd hroot (h.root_ne_leaf hk c w)
  · obtain ⟨-, rfl, hlen⟩ := h.leaf_of_follow_root hp
    exact ⟨hp, hpos, hlen⟩

end Codes

/-- Settles O42: the completion of GEN on a tree, whose table has the shape of 10_state.md R56. -/
theorem genAssignsThePaths : Obligations.GenAssignsThePaths := by
  refine ⟨decodeOfEncodeIsTheInstruction .gen rfl, fun s hvalid => ?_⟩
  refine ⟨_, CommandStage.gen.exec_eq, ?_⟩
  rw [stageGen_of_treeValid hvalid]
  refine ⟨rfl, fun htree c => ?_⟩
  have hcodes := treeCodes_codesOk s.node s.root
  refine ⟨fun hc => hcodes.invalid c ?_, fun hc => ?_⟩
  · exact Bool.eq_false_iff.mpr fun h => htree.treeCodes_valid_iff.mp h hc
  · have hentry := htree.treeCodes_valid hc
    exact ⟨hentry, (hcodes.shape c hentry).2.symm, htree.treeCodes_single hc,
      htree.treeCodes_path hc⟩

/-! ## One reading (R257; 45_bit_packer.md R278) -/

/-- An entry whose `len` is the length of its code emits its code. -/
theorem CodeEntry.bits_eq_code {e : CodeEntry} (h : e.code.length = e.len.toNat) :
    e.bits = e.code := by
  refine List.ext_getElem (by rw [bits_length, h]) fun j hj hj' => ?_
  have hlt : j < e.len.toNat := h ▸ hj'
  simp [bits, bit, hlt, hj']

/-- A stream of at least one code is not empty. -/
theorem CodesOk.codeStream_cons_ne_nil {ct : Vector CodeEntry 256} (hct : CodesOk ct) {x : Byte}
    (hx : (entryAt ct x).valid = true) (xs : List Byte) : codeStream ct (x :: xs) ≠ [] := by
  obtain ⟨hpos, -⟩ := hct.shape x hx
  apply List.ne_nil_of_length_pos
  rw [codeStream_cons_length]
  omega

/-- Of two codes that begin one stream, one begins the other, so they are one symbol's. -/
theorem CodesOk.head_unique {ct : Vector CodeEntry 256} (hct : CodesOk ct) {x y : Byte}
    {xs ys : List Byte} (hx : (entryAt ct x).valid = true) (hy : (entryAt ct y).valid = true)
    (h : codeStream ct (x :: xs) = codeStream ct (y :: ys)) : x = y := by
  have begins {z : Byte} {zs : List Byte} (hz : (entryAt ct z).valid = true) :
      (entryAt ct z).code <+: codeStream ct (z :: zs) := by
    rw [← CodeEntry.bits_eq_code (hct.shape z hz).2]
    exact List.prefix_append _ (codeStream ct zs)
  by_contra hne
  obtain hxy | hyx := List.prefix_or_prefix_of_prefix (begins (zs := xs) hx) (h ▸ begins hy)
  · exact hct.prefixFree x y hx hy hne hxy
  · exact hct.prefixFree y x hy hx (Ne.symm hne) hyx

/-- Settles O45, by induction on the first input: equal streams start with the same symbol's code, and
after it equal streams are left. -/
theorem bitStreamHasOneReading : Obligations.BitStreamHasOneReading := by
  intro ct xs ys hct hxs hys h
  induction xs generalizing ys with
  | nil =>
    cases ys with
    | nil => rfl
    | cons y ys => exact absurd h.symm (hct.codeStream_cons_ne_nil (hys y List.mem_cons_self) ys)
  | cons x xs ih =>
    have hx := hxs x List.mem_cons_self
    cases ys with
    | nil => exact absurd h (hct.codeStream_cons_ne_nil hx xs)
    | cons y ys =>
      obtain rfl := hct.head_unique hx (hys y List.mem_cons_self) h
      have hrest : codeStream ct xs = codeStream ct ys := List.append_cancel_left h
      rw [ih ys (fun z hz => hxs z (List.mem_cons_of_mem x hz))
        (fun z hz => hys z (List.mem_cons_of_mem x hz)) hrest]

end Sys2Proof.Machine

/-! PROOFS, 45_bit_packer.md: what PACK writes, and the first input byte at which it fails. -/

namespace Sys2Proof.Machine

/-! ## One input byte of PACK's loop (R272, R273) -/

section OneByte

variable {s : State} {i : Nat} {k : PackState}

/-- The byte has no code. -/
theorem packFrom_miss (n : Nat) (hcode : (entryAt s.ct (s.ibuf.readByte i)).valid = false) :
    packFrom s (n + 1) i k =
      .error ⟨.codebookMiss, BitVec.ofNat 32 i, s.ibuf.readByte i⟩ := by
  simp only [packFrom, hcode, if_true]

/-- The byte's code does not fit. -/
theorem packFrom_overflow (n : Nat) (hcode : (entryAt s.ct (s.ibuf.readByte i)).valid = true)
    (hlong : 8 * s.params.obufBytes < k.p + (entryAt s.ct (s.ibuf.readByte i)).len.toNat) :
    packFrom s (n + 1) i k =
      .error ⟨.obufOverflow, BitVec.ofNat 32 i, s.ibuf.readByte i⟩ := by
  simp [packFrom, hcode, hlong]

/-- The byte's code fits. -/
theorem packFrom_fitting (n : Nat) (hcode : (entryAt s.ct (s.ibuf.readByte i)).valid = true)
    (hfits : k.p + (entryAt s.ct (s.ibuf.readByte i)).len.toNat ≤ 8 * s.params.obufBytes) :
    packFrom s (n + 1) i k =
      packFrom s n (i + 1) (pushCode k (entryAt s.ct (s.ibuf.readByte i))) := by
  simp [packFrom, hcode, Nat.not_lt_of_le hfits]

end OneByte

/-! ## The bytes before the end or the failure (R270, R273) -/

theorem codeStream_cons (ct : Vector CodeEntry 256) (x : Byte) (xs : List Byte) :
    codeStream ct (x :: xs) = (entryAt ct x).bits ++ codeStream ct xs := rfl

/-- Bytes whose codes fit go through the shift network, one bit of their stream after the other, and the
loop goes on after them. -/
theorem packFrom_add {s : State} {n i : Nat} {k : PackState} (m : Nat)
    (hcodes : ∀ x ∈ (List.range' i n).map s.ibuf.readByte, (entryAt s.ct x).valid = true)
    (hfits : k.p + (codeStream s.ct ((List.range' i n).map s.ibuf.readByte)).length ≤
      8 * s.params.obufBytes) :
    packFrom s (n + m) i k = packFrom s m (i + n)
      ((codeStream s.ct ((List.range' i n).map s.ibuf.readByte)).foldl pushBit k) := by
  induction n generalizing i k with
  | zero => simp [codeStream]
  | succ n ih =>
    rw [List.range'_succ, List.map_cons] at hcodes hfits ⊢
    obtain ⟨hcode, hrest⟩ := List.forall_mem_cons.mp hcodes
    rw [codeStream_cons_length] at hfits
    have hp : (pushCode k (entryAt s.ct (s.ibuf.readByte i))).p =
        k.p + (entryAt s.ct (s.ibuf.readByte i)).len.toNat := by
      rw [pushCode, foldl_pushBit_p, CodeEntry.bits_length]
    rw [Nat.add_right_comm, packFrom_fitting _ hcode (by omega), ih hrest (by omega),
      Nat.add_right_comm i 1 n, Nat.add_assoc i n 1, codeStream_cons, List.foldl_append, pushCode]

/-- The first input bytes are those PACK's loop reads first. -/
theorem take_inputBytes {s : State} {i : Nat} (hi : i ≤ s.inLen.toNat) :
    (inputBytes s).take i = (List.range' 0 i).map s.ibuf.readByte := by
  rw [inputBytes, ← List.map_take, List.take_range, Nat.min_eq_left hi, List.range_eq_range']

/-! ## The shift network (R271, R273) -/

/-- A bit shifted into the accumulator. -/
theorem shiftIn_getLsbD (acc : Byte) (b : Bool) {j : Nat} (hj : j < 8) :
    ((acc <<< 1) ||| (BitVec.ofBool b).setWidth 8).getLsbD j =
      if j = 0 then b else acc.getLsbD (j - 1) := by
  by_cases h0 : j = 0
  · subst h0
    simp
  · rw [if_neg h0, BitVec.getLsbD_or, BitVec.getLsbD_shiftLeft, BitVec.getLsbD_setWidth]
    simp [hj, h0, -BitVec.getLsbD_eq_getElem]

/-- NACC after one more bit. -/
theorem nacc_succ {k : PackState} (hfill : k.nacc.toNat = k.p % 8) :
    (k.nacc + 1).toNat = (k.p + 1) % 8 := by
  have hone : (1 : BitVec 3).toNat = 1 := rfl
  rw [BitVec.toNat_add, hfill, hone]
  omega

theorem nacc_eq_zero_iff {n : BitVec 3} {m : Nat} (h : n.toNat = m) : n = 0 ↔ m = 0 :=
  h ▸ BitVec.toNat_inj.symm

/-- `k` has emitted `bits` over `obuf`: the complete bytes hold them, most significant bit first, the
accumulator holds those of the partial byte, and every other byte is that of `obuf`. -/
structure Packed (obuf : Memory Byte) (bits : List Bool) (k : PackState) : Prop where
  p     : k.p = bits.length
  fill  : k.nacc.toNat = k.p % 8
  acc   : ∀ j, j < 8 → k.acc.getLsbD j = (decide (j < k.p % 8) && bits.getD (k.p - 1 - j) false)
  bytes : ∀ b j, b < k.p / 8 → j < 8 →
            (k.obuf.readByte b).getLsbD (7 - j) = bits.getD (8 * b + j) false
  rest  : ∀ b, k.p / 8 ≤ b → k.obuf.readByte b = obuf.readByte b

theorem packed_start (obuf : Memory Byte) : Packed obuf [] ⟨0, 0, 0, obuf⟩ where
  p := rfl
  fill := rfl
  acc := by simp
  bytes b j hb := absurd hb (by simp)
  rest b _ := rfl

/-- The accumulator after one more bit of the stream. -/
theorem Packed.shiftIn {obuf : Memory Byte} {bits : List Bool} {k : PackState}
    (h : Packed obuf bits k) (b : Bool) {j : Nat} (hj : j < 8) :
    ((k.acc <<< 1) ||| (BitVec.ofBool b).setWidth 8).getLsbD j =
      (decide (j ≤ k.p % 8) && (bits ++ [b]).getD (k.p - j) false) := by
  have hp := h.p
  rw [shiftIn_getLsbD k.acc b hj]
  split
  · rename_i h0
    rw [List.getD_append_right _ _ _ _ (by omega)]
    simp [h0, hp]
  · rw [h.acc _ (by omega)]
    by_cases hlt : j ≤ k.p % 8
    · rw [List.getD_append _ _ _ _ (by omega), show k.p - 1 - (j - 1) = k.p - j by omega]
      simp [hlt, show j - 1 < k.p % 8 by omega]
    · simp [hlt, show ¬ j - 1 < k.p % 8 by omega]

theorem Packed.pushBit {obuf : Memory Byte} {bits : List Bool} {k : PackState}
    (h : Packed obuf bits k) (b : Bool) : Packed obuf (bits ++ [b]) (pushBit k b) := by
  have hp := h.p
  have hp' : k.p + 1 = (bits ++ [b]).length := by simp [hp]
  have hfill := nacc_succ h.fill
  have hbytes (c j : Nat) (hc : c < k.p / 8) (hj : j < 8) :
      (k.obuf.readByte c).getLsbD (7 - j) = (bits ++ [b]).getD (8 * c + j) false := by
    rw [h.bytes c j hc hj, List.getD_append _ _ _ _ (by omega)]
  unfold Machine.pushBit
  simp only [nacc_eq_zero_iff hfill]
  split
  · rename_i hwrap
    refine ⟨hp', hfill, by simp [hwrap], fun c j hc hj => ?_, fun c hc => ?_⟩
    · simp only at hc ⊢
      rw [Memory.readByte_write]
      split
      · rw [h.shiftIn b (by omega), show k.p - (7 - j) = 8 * c + j by omega]
        simp [show 7 - j ≤ k.p % 8 by omega]
      · exact hbytes c j (by omega) hj
    · simp only at hc ⊢
      rw [Memory.readByte_write, if_neg (by omega)]
      exact h.rest c (by omega)
  · refine ⟨hp', hfill, fun j hj => ?_, fun c j hc hj => ?_, fun c hc => ?_⟩
    · rw [h.shiftIn b hj, Nat.add_sub_cancel]
      congr 2
      simp only [eq_iff_iff]
      omega
    · simp only at hc
      exact hbytes c j (by omega) hj
    · simp only at hc
      exact h.rest c (by omega)

theorem Packed.foldl_pushBit {obuf : Memory Byte} {bits : List Bool} {k : PackState}
    (h : Packed obuf bits k) (bits' : List Bool) :
    Packed obuf (bits ++ bits') (bits'.foldl Machine.pushBit k) := by
  induction bits' generalizing bits k with
  | nil => rwa [List.append_nil]
  | cons b bits' ih =>
    rw [List.append_cons]
    exact ih (h.pushBit b)

/-- The last partial byte holds the rest of the bits, then zeros. -/
theorem Packed.lastByte {obuf : Memory Byte} {bits : List Bool} {k : PackState}
    (h : Packed obuf bits k) {j : Nat} (hj : j < 8) :
    (k.acc <<< (8 - k.nacc.toNat)).getLsbD (7 - j) = bits.getD (8 * (k.p / 8) + j) false := by
  have hp := h.p
  have hfill := h.fill
  rw [BitVec.getLsbD_shiftLeft, h.acc _ (by omega)]
  by_cases hlt : j < k.p % 8
  · rw [show k.p - 1 - (7 - j - (8 - k.nacc.toNat)) = 8 * (k.p / 8) + j by omega]
    simp [show 7 - j < 8 by omega, show ¬ 7 - j < 8 - k.nacc.toNat by omega,
      show 7 - j - (8 - k.nacc.toNat) < k.p % 8 by omega]
  · rw [List.getD_eq_default bits false (n := 8 * (k.p / 8) + j) (by omega)]
    simp [show 7 - j < 8 - k.nacc.toNat by omega]

/-- The bytes of the flushed OBUF that the bits reach hold the bits and the padding (R274). -/
theorem Packed.flushBits_bits {obuf : Memory Byte} {bits : List Bool} {k : PackState}
    (h : Packed obuf bits k) {b j : Nat} (hb : b < (k.p + 7) / 8) (hj : j < 8) :
    ((flushBits k).readByte b).getLsbD (7 - j) = bits.getD (8 * b + j) false := by
  simp only [flushBits, ne_eq, nacc_eq_zero_iff h.fill]
  split
  · rw [Memory.readByte_write]
    split
    · subst b
      exact h.lastByte hj
    · exact h.bytes b j (by omega) hj
  · exact h.bytes b j (by omega) hj

/-- The bytes beyond keep their values (R275). -/
theorem Packed.flushBits_rest {obuf : Memory Byte} {bits : List Bool} {k : PackState}
    (h : Packed obuf bits k) {b : Nat} (hb : (k.p + 7) / 8 ≤ b) :
    (flushBits k).readByte b = obuf.readByte b := by
  simp only [flushBits, ne_eq, nacc_eq_zero_iff h.fill]
  split
  · rw [Memory.readByte_write, if_neg (by omega)]
    exact h.rest b (by omega)
  · exact h.rest b (by omega)

/-! ## The statements -/

/-- PACK's work on the first input bytes (R273): the bits of their codes, over OBUF. -/
def packedPrefix (s : State) (i : Nat) : PackState :=
  (codeStream s.ct ((inputBytes s).take i)).foldl pushBit ⟨0, 0, 0, s.obuf⟩

theorem packedPrefix_packed (s : State) (i : Nat) :
    Packed s.obuf (codeStream s.ct ((inputBytes s).take i)) (packedPrefix s i) :=
  (packed_start s.obuf).foldl_pushBit _

/-- When the codes of the first bytes fit, PACK's loop goes on after them. -/
theorem packFrom_packedPrefix {s : State} {i m : Nat} (hlen : i + m = s.inLen.toNat)
    (hcodes : ∀ x ∈ (inputBytes s).take i, (entryAt s.ct x).valid = true)
    (hfits : (codeStream s.ct ((inputBytes s).take i)).length ≤ 8 * s.params.obufBytes) :
    packFrom s s.inLen.toNat 0 ⟨0, 0, 0, s.obuf⟩ = packFrom s m i (packedPrefix s i) := by
  rw [take_inputBytes (by omega)] at hcodes hfits
  rw [← hlen, packFrom_add m hcodes (by simpa using hfits), packedPrefix,
    take_inputBytes (by omega), Nat.zero_add]

theorem codeStream_length (ct : Vector CodeEntry 256) (xs : List Byte) :
    (codeStream ct xs).length = (xs.map (fun x => (entryAt ct x).len.toNat)).sum := by
  simp [codeStream, List.length_flatMap]

/-- Settles O43: PACK's loop emits the whole stream, and the flush writes what is left of it. -/
theorem packWritesTheStream : Obligations.PackWritesTheStream := by
  refine ⟨decodeOfEncodeIsTheInstruction .pack rfl, fun s hrange hcodes hfits => ?_⟩
  have hall : (inputBytes s).take s.inLen.toNat = inputBytes s :=
    List.take_of_length_le (inputBytes_length s).le
  have hloop := packFrom_packedPrefix (s := s) (m := 0) rfl (hall.symm ▸ hcodes) (hall.symm ▸ hfits)
  have hpacked := packedPrefix_packed s s.inLen.toNat
  rw [hall] at hpacked
  have hs := stagePack_of_ok hrange hloop
  have hbytes := (stagePack_outputOk s).bytes
  obtain ⟨-, -, -, hbits⟩ | ⟨hlong, -⟩ := stagePack_of_codes hrange hcodes
  · refine ⟨_, CommandStage.pack.exec_eq, ?_⟩
    rw [hs] at hbits hbytes ⊢
    have hend := hbytes
    rw [hbits, ← hpacked.p] at hend
    exact ⟨rfl, hbits, hbits.trans (codeStream_length _ _), hbytes,
      fun b j hb hj => hpacked.flushBits_bits (hb.trans_eq hend) hj,
      fun b hb => hpacked.flushBits_rest (hend.ge.trans hb)⟩
  · exact absurd hfits (Nat.not_le_of_lt hlong)

/-- PACK whose loop ends in an error at an input byte. -/
theorem packFailed_of_packFrom {s : State} {i : Nat} {name : ErrName}
    (hrange : s.inLen.toNat ≤ s.params.ibufBytes)
    (h : packFrom s s.inLen.toNat 0 ⟨0, 0, 0, s.obuf⟩ =
      .error ⟨name, BitVec.ofNat 32 i, s.ibuf.readByte i⟩) :
    ∃ t, packFailed s t name.code i := by
  refine ⟨_, CommandStage.pack.exec_eq, ?_⟩
  rw [stagePack_of_error hrange h]
  exact ⟨rfl, rfl⟩

/-- Settles O44: PACK's loop gets to byte i, and the check that fails there names it. -/
theorem packFailsAtTheFirstByte : Obligations.PackFailsAtTheFirstByte := by
  intro s i hrange hi hcodes hfits
  obtain ⟨m, hm⟩ := Nat.exists_eq_add_of_lt hi
  have hloop := packFrom_packedPrefix (s := s) (m := m + 1) hm.symm hcodes hfits
  refine ⟨fun hmiss => ?_, fun hcode hlong => ?_⟩
  · exact packFailed_of_packFrom hrange (hloop.trans (packFrom_miss m hmiss))
  · refine packFailed_of_packFrom hrange (hloop.trans (packFrom_overflow m hcode ?_))
    rw [(packedPrefix_packed s i).p, take_inputBytes hi.le]
    rw [take_inputBytes hi, List.range'_1_concat] at hlong
    simpa [codeStream, Nat.zero_add] using hlong

end Sys2Proof.Machine

/-! PROOFS, 46_encode_pipeline.md R300, R302 and R304: ENCODE with IN_LEN out of range, and ENCODE as the
four stage commands one after the other. -/

namespace Sys2Proof.Machine

/-! ## IN_LEN above P_IBUF_BYTES (R302; 42_frequency_counter.md R202; 45_bit_packer.md R273) -/

theorem stageCount_outOfRange {s : State} (hout : s.params.ibufBytes < s.inLen.toNat) :
    stageCount s = (s, .err ⟨.lenRange, s.inLen, 0⟩) := by
  obtain ⟨-, hs⟩ | ⟨hrange, -⟩ := stageCount_cases s
  · exact hs
  · exact absurd hout (Nat.not_lt_of_le hrange)

/-- ENCODE ends where its COUNT stage does. -/
theorem stageEncode_outOfRange {s : State} (hout : s.params.ibufBytes < s.inLen.toNat) :
    stageEncode s = (s, .err ⟨.lenRange, s.inLen, 0⟩) := by
  rw [stageEncode, stageCount_outOfRange hout]

theorem stagePack_outOfRange {s : State} (hout : s.params.ibufBytes < s.inLen.toNat) :
    stagePack s = (s.clearOut, .err ⟨.lenRange, s.inLen, 0⟩) := by
  obtain ⟨-, hs⟩ | ⟨e, hrange, -⟩ | ⟨k, hrange, -⟩ := stagePack_cases s
  · exact hs
  · exact absurd hout (Nat.not_lt_of_le hrange)
  · exact absurd hout (Nat.not_lt_of_le hrange)

/-- Settles O34: the completions of the three stages that check IN_LEN. -/
theorem lengthErrors : Obligations.LengthErrors := by
  refine fun s hout => ⟨fun i hi => ?_, ?_⟩
  · simp only [List.mem_cons, List.not_mem_nil, or_false] at hi
    obtain rfl | rfl := hi
    · rw [CommandStage.count.exec_eq, stageCount_outOfRange hout]
      rfl
    · rw [CommandStage.encode.exec_eq, stageEncode_outOfRange hout]
      rfl
  · rw [CommandStage.pack.exec_eq, stagePack_outOfRange hout]
    rfl

/-! ## A stage after a completion

Between two commands of the sequence a completion writes BUSY and DONE, which ENCODE does not do between
its stages. No stage reads them, and the last completion writes them again. -/

/-- The same end of a stage, after a completion's BUSY and DONE. -/
def Stage.finish (r : Stage) : Stage := (r.1.finish, r.2)

@[simp] theorem complete_finish (r : Stage) : complete r.finish = complete r := by
  obtain ⟨s, _ | e⟩ := r <;> rfl

theorem stageBuild_finish (s : State) : stageBuild s.finish = (stageBuild s).finish := by
  unfold stageBuild
  simp only [State.finish_same]
  split
  · rfl
  · split <;> rfl

theorem stageGen_finish (s : State) : stageGen s.finish = (stageGen s).finish := by
  unfold stageGen
  simp only [State.finish_same]
  split <;> rfl

theorem packFrom_finish (s : State) (n i : Nat) (k : PackState) :
    packFrom s.finish n i k = packFrom s n i k := by
  induction n generalizing i k with
  | zero => rfl
  | succ n ih => simp [packFrom, ih]

theorem stagePack_finish (s : State) : stagePack s.finish = (stagePack s).finish := by
  obtain ⟨hout, hs⟩ | ⟨e, hrange, he, hs⟩ | ⟨k, hrange, hk, hs⟩ := stagePack_cases s
  · rw [hs, stagePack_outOfRange (by simpa using hout)]
    rfl
  · rw [hs, stagePack_of_error (by simpa using hrange) ((packFrom_finish ..).trans he)]
    rfl
  · rw [hs, stagePack_of_ok (by simpa using hrange) ((packFrom_finish ..).trans hk)]
    rfl

/-! ## The sequence (R300, R304) -/

/-- BUILD raises no error when it leaves a tree (43_tree_builder.md R224). -/
theorem stageBuild_of_treeValid {s : State} (hvalid : (stageBuild s).1.treeValid = true) :
    stageBuild s = ((stageBuild s).1, .ok) := by
  obtain ⟨-, hs⟩ | ⟨idx, -, -, hs⟩ | ⟨m, -, -, hs⟩ := stageBuild_cases s <;> rw [hs] at hvalid ⊢
  · exact absurd hvalid Bool.false_ne_true
  · exact absurd hvalid Bool.false_ne_true

/-- Settles O47: each command of the sequence runs ENCODE's next stage, on a state that differs in BUSY
and DONE only. -/
theorem encodeIsTheStageSequence : Obligations.EncodeIsTheStageSequence := by
  intro s hlen hrange
  obtain ⟨hvalid, hencode⟩ := stageEncode_eq_stagePack hlen hrange
  have hbuild : stageBuild (stageCount s).1 = (s.built, .ok) := stageBuild_of_treeValid hvalid
  have hgen : stageGen s.built = (s.coded, .ok) := stageGen_of_treeValid hvalid
  refine ⟨(stageCount s).1.finish, s.built.finish, s.coded.finish, complete (stagePack s.coded),
    ?_, ?_, ?_, ?_, ?_⟩
  · rw [CommandStage.count.exec_eq, stageCount_inRange hrange]
    rfl
  · rw [CommandStage.build.exec_eq, stageBuild_finish, complete_finish, hbuild]
    rfl
  · rw [CommandStage.gen.exec_eq, stageGen_finish, complete_finish, hgen]
    rfl
  · rw [CommandStage.pack.exec_eq, stagePack_finish, complete_finish]
  · rw [CommandStage.encode.exec_eq, hencode]

end Sys2Proof.Machine

/-! PROOFS, 60_exceptions.md R325 and R328: nothing stops the machine. -/

namespace Sys2Proof.Machine

/-- Settles O8: a case over the instructions shows that each answers a next state (`exec_next`), and with it
a case over the agents, where a packet that does not decode is a bus error or an illegal command, shows the
same of the step (`step_next`). -/
theorem noInstructionStopsTheMachine : Obligations.NoInstructionStopsTheMachine :=
  ⟨exec_next, step_next⟩

end Sys2Proof.Machine
